-- ==== Sys2Proof/Word.lean ====
section
/-! DEFINITION. The machine's word sizes (R5, R20, R80) and the types of the operand fields (R10). -/

namespace Sys2Proof

/-- A 32-bit word: a register, an address while it is computed, an instruction (R8, R140). -/
abbrev Word := BitVec 32

/-- A byte (R80). -/
abbrev Byte := BitVec 8

/-- The number of a general register, or of a coprocessor register (R149): a 5-bit field. -/
abbrev Reg := BitVec 5

/-- A 16-bit immediate or offset field (R142). -/
abbrev Imm16 := BitVec 16

end Sys2Proof
end

