-- ==== Sys2Proof/Syntax.lean ====
section
/-! DEFINITION. The instruction set: one constructor per row of spec/opcode_table.json, its arguments the row's fields in
the table's order (R142 to R147). Two selector fields become constructors of their own: the CP0 register number (R37) and
the CACHE operation code (R386). -/

namespace Sys2Proof

/-- The CP0 registers (R37): the twelve implemented numbers by name, and the reserved numbers. -/
inductive Cp0Reg where
  | badVAddr | count | compare | status | cause | epc | prId | config | ebase | tagLo | tagHi | errorEPC
  /-- A number that R37 lists as reserved. -/
  | reserved (n : Reg)
  deriving DecidableEq, Repr

/-- The CACHE operations of Table 4-1 (R386), and the codes that the table leaves blank (R387). -/
inductive CacheOp where
  | indexInvalidateI | indexUnlockI | hitInvalidateI | fillI | fillLockI
  | indexWritebackInvalidateD | indexUnlockD | createDirtyD | hitInvalidateD | hitWritebackD
  | hitWritebackInvalidateD | createDirtyLockD | fillD | fillLockD
  /-- A code that Table 4-1 prints as "-". -/
  | blank (func : BitVec 5)
  deriving DecidableEq, Repr

/-- The coprocessors outside the core (R32). -/
inductive Cop where
  | cp1 | cp2 | cp3
  deriving DecidableEq, Repr

/-- The instructions. -/
inductive Instr where
  -- loads, stores, LL and SC (40_load_store.md)
  /-- LB (R202). -/
  | lb (base rt : Reg) (off : Imm16)
  /-- LBU (R203). -/
  | lbu (base rt : Reg) (off : Imm16)
  /-- LH (R204). -/
  | lh (base rt : Reg) (off : Imm16)
  /-- LHU (R205). -/
  | lhu (base rt : Reg) (off : Imm16)
  /-- LWL (R206). -/
  | lwl (base rt : Reg) (off : Imm16)
  /-- LWR (R207). -/
  | lwr (base rt : Reg) (off : Imm16)
  /-- LL (R208). -/
  | ll (base rt : Reg) (off : Imm16)
  /-- LW (R209). -/
  | lw (base rt : Reg) (off : Imm16)
  /-- SB (R210). -/
  | sb (base rt : Reg) (off : Imm16)
  /-- SH (R211). -/
  | sh (base rt : Reg) (off : Imm16)
  /-- SWL (R212). -/
  | swl (base rt : Reg) (off : Imm16)
  /-- SWR (R213). -/
  | swr (base rt : Reg) (off : Imm16)
  /-- SC (R214). -/
  | sc (base rt : Reg) (off : Imm16)
  /-- SW (R215). -/
  | sw (base rt : Reg) (off : Imm16)
  -- ALU immediate (41_alu.md section 2)
  /-- ADDI (R232). -/
  | addi (rs rt : Reg) (imm : Imm16)
  /-- ADDIU (R233). -/
  | addiu (rs rt : Reg) (imm : Imm16)
  /-- SLTI (R234). -/
  | slti (rs rt : Reg) (imm : Imm16)
  /-- SLTIU (R235). -/
  | sltiu (rs rt : Reg) (imm : Imm16)
  /-- ANDI (R236). -/
  | andi (rs rt : Reg) (imm : Imm16)
  /-- ORI (R237). -/
  | ori (rs rt : Reg) (imm : Imm16)
  /-- XORI (R238). -/
  | xori (rs rt : Reg) (imm : Imm16)
  /-- LUI (R239). -/
  | lui (rt : Reg) (imm : Imm16)
  -- three-operand register (41_alu.md section 3)
  /-- ADD (R240). -/
  | add (rs rt rd : Reg)
  /-- ADDU (R241). -/
  | addu (rs rt rd : Reg)
  /-- SUB (R242). -/
  | sub (rs rt rd : Reg)
  /-- SUBU (R243). -/
  | subu (rs rt rd : Reg)
  /-- SLT (R244). -/
  | slt (rs rt rd : Reg)
  /-- SLTU (R245). -/
  | sltu (rs rt rd : Reg)
  /-- AND (R246). -/
  | and (rs rt rd : Reg)
  /-- OR (R247). -/
  | or (rs rt rd : Reg)
  /-- XOR (R248). -/
  | xor (rs rt rd : Reg)
  /-- NOR (R249). -/
  | nor (rs rt rd : Reg)
  -- shifts (41_alu.md section 4)
  /-- SLL (R251). -/
  | sll (rt rd : Reg) (sa : BitVec 5)
  /-- SRL (R252). -/
  | srl (rt rd : Reg) (sa : BitVec 5)
  /-- SRA (R253). -/
  | sra (rt rd : Reg) (sa : BitVec 5)
  /-- SLLV (R254). -/
  | sllv (rs rt rd : Reg)
  /-- SRLV (R255). -/
  | srlv (rs rt rd : Reg)
  /-- SRAV (R256). -/
  | srav (rs rt rd : Reg)
  -- multiply, divide, HI and LO (42_muldiv.md)
  /-- MULT (R262). -/
  | mult (rs rt : Reg)
  /-- MULTU (R263). -/
  | multu (rs rt : Reg)
  /-- DIV (R264). -/
  | div (rs rt : Reg)
  /-- DIVU (R265). -/
  | divu (rs rt : Reg)
  /-- MFHI (R266). -/
  | mfhi (rd : Reg)
  /-- MFLO (R267). -/
  | mflo (rd : Reg)
  /-- MTHI (R268). -/
  | mthi (rs : Reg)
  /-- MTLO (R269). -/
  | mtlo (rs : Reg)
  /-- MADD (R270). -/
  | madd (rs rt : Reg)
  /-- MADDU (R271). -/
  | maddu (rs rt : Reg)
  /-- MSUB (R272). -/
  | msub (rs rt : Reg)
  /-- MSUBU (R273). -/
  | msubu (rs rt : Reg)
  -- ALLEGREX extended (43_extended.md)
  /-- MAX (R281). -/
  | max (rs rt rd : Reg)
  /-- MIN (R282). -/
  | min (rs rt rd : Reg)
  /-- MOVN (R283). -/
  | movn (rs rt rd : Reg)
  /-- MOVZ (R284). -/
  | movz (rs rt rd : Reg)
  /-- EXT (R285). -/
  | ext (rs rt : Reg) (sizeM1 pos : BitVec 5)
  /-- INS (R286). -/
  | ins (rs rt : Reg) (msb pos : BitVec 5)
  /-- SEB (R287). -/
  | seb (rt rd : Reg)
  /-- SEH (R288). -/
  | seh (rt rd : Reg)
  /-- ROTR (R290). -/
  | rotr (rt rd : Reg) (sa : BitVec 5)
  /-- ROTRV (R291). -/
  | rotrv (rs rt rd : Reg)
  /-- WSBH (R292). -/
  | wsbh (rt rd : Reg)
  /-- WSBW (R293). -/
  | wsbw (rt rd : Reg)
  /-- BITREV (R294). -/
  | bitrev (rt rd : Reg)
  /-- CLZ (R295). -/
  | clz (rs rd : Reg)
  /-- CLO (R296). -/
  | clo (rs rd : Reg)
  -- jumps and branches (44_jump_branch.md)
  /-- J (R310). -/
  | j (target : BitVec 26)
  /-- JAL (R311). -/
  | jal (target : BitVec 26)
  /-- JR (R312). -/
  | jr (rs : Reg)
  /-- JALR (R313). -/
  | jalr (rs rd : Reg)
  /-- BEQ (R314). -/
  | beq (rs rt : Reg) (off : Imm16)
  /-- BNE (R315). -/
  | bne (rs rt : Reg) (off : Imm16)
  /-- BLEZ (R316). -/
  | blez (rs : Reg) (off : Imm16)
  /-- BGTZ (R317). -/
  | bgtz (rs : Reg) (off : Imm16)
  /-- BLTZ (R318). -/
  | bltz (rs : Reg) (off : Imm16)
  /-- BGEZ (R319). -/
  | bgez (rs : Reg) (off : Imm16)
  /-- BLTZAL (R320). -/
  | bltzal (rs : Reg) (off : Imm16)
  /-- BGEZAL (R321). -/
  | bgezal (rs : Reg) (off : Imm16)
  /-- BLTZL (R326). -/
  | bltzl (rs : Reg) (off : Imm16)
  /-- BGEZL (R327). -/
  | bgezl (rs : Reg) (off : Imm16)
  /-- BLTZALL (R328). -/
  | bltzall (rs : Reg) (off : Imm16)
  /-- BGEZALL (R329). -/
  | bgezall (rs : Reg) (off : Imm16)
  /-- BEQL (R322). -/
  | beql (rs rt : Reg) (off : Imm16)
  /-- BNEL (R323). -/
  | bnel (rs rt : Reg) (off : Imm16)
  /-- BLEZL (R324). -/
  | blezl (rs : Reg) (off : Imm16)
  /-- BGTZL (R325). -/
  | bgtzl (rs : Reg) (off : Imm16)
  -- special (45_special.md)
  /-- SYSCALL (R340). -/
  | syscall (code : BitVec 20)
  /-- BREAK (R341). -/
  | brk (code : BitVec 20)
  /-- SYNC (R342). -/
  | sync
  -- coprocessors 1, 2 and 3 (46_coprocessor.md)
  /-- LWC1 (R353). -/
  | lwc1 (base rt : Reg) (off : Imm16)
  /-- SWC1 (R354). -/
  | swc1 (base rt : Reg) (off : Imm16)
  /-- MTC1 (R355). -/
  | mtc1 (rt rd : Reg)
  /-- MFC1 (R356). -/
  | mfc1 (rt rd : Reg)
  /-- CTC1 (R357). -/
  | ctc1 (rt rd : Reg)
  /-- CFC1 (R358). -/
  | cfc1 (rt rd : Reg)
  /-- COP1 (R359). -/
  | cop1 (cofun : BitVec 25)
  /-- BC1F (R360). -/
  | bc1f (off : Imm16)
  /-- BC1T (R361). -/
  | bc1t (off : Imm16)
  /-- BC1FL (R363). -/
  | bc1fl (off : Imm16)
  /-- BC1TL (R364). -/
  | bc1tl (off : Imm16)
  /-- LWC2 (R353). -/
  | lwc2 (base rt : Reg) (off : Imm16)
  /-- SWC2 (R354). -/
  | swc2 (base rt : Reg) (off : Imm16)
  /-- MTC2 (R355). -/
  | mtc2 (rt rd : Reg)
  /-- MFC2 (R356). -/
  | mfc2 (rt rd : Reg)
  /-- CTC2 (R357). -/
  | ctc2 (rt rd : Reg)
  /-- CFC2 (R358). -/
  | cfc2 (rt rd : Reg)
  /-- COP2 (R359). -/
  | cop2 (cofun : BitVec 25)
  /-- BC2F (R360). -/
  | bc2f (off : Imm16)
  /-- BC2T (R361). -/
  | bc2t (off : Imm16)
  /-- BC2FL (R363). -/
  | bc2fl (off : Imm16)
  /-- BC2TL (R364). -/
  | bc2tl (off : Imm16)
  /-- LWC3 (R353). -/
  | lwc3 (base rt : Reg) (off : Imm16)
  /-- SWC3 (R354). -/
  | swc3 (base rt : Reg) (off : Imm16)
  /-- MTC3 (R355). -/
  | mtc3 (rt rd : Reg)
  /-- MFC3 (R356). -/
  | mfc3 (rt rd : Reg)
  /-- CTC3 (R357). -/
  | ctc3 (rt rd : Reg)
  /-- CFC3 (R358). -/
  | cfc3 (rt rd : Reg)
  /-- COP3 (R359). -/
  | cop3 (cofun : BitVec 25)
  /-- BC3F (R360). -/
  | bc3f (off : Imm16)
  /-- BC3T (R361). -/
  | bc3t (off : Imm16)
  /-- BC3FL (R363). -/
  | bc3fl (off : Imm16)
  /-- BC3TL (R364). -/
  | bc3tl (off : Imm16)
  -- CP0 and CACHE (47_cp0_cache.md)
  /-- MFC0 (R380). -/
  | mfc0 (rt : Reg) (rd : Cp0Reg)
  /-- MTC0 (R381). -/
  | mtc0 (rt : Reg) (rd : Cp0Reg)
  /-- ERET (R382). -/
  | eret
  /-- CACHE (R384). -/
  | cache (base : Reg) (op : CacheOp) (off : Imm16)
  deriving DecidableEq, Repr

end Sys2Proof
end

