-- ==== Sys2Proof/Machine/Parts.lean ====
section
/-! DEFINITION. The parts that the machine's state is made of (10_state.md), as plain data. -/

namespace Sys2Proof.Machine

/-- The operating modes (R51, R460). -/
inductive Mode where
  | user | supervisor | kernel
  deriving DecidableEq, Repr, Inhabited

/-- The Status register, field by field (R42, R43); the bits that R42 prints as 0 have no field. -/
structure Status where
  /-- CU[3:0]: coprocessor usable. -/
  cu : BitVec 4
  /-- RE: reverse endian in user mode. -/
  re : Bool
  /-- BEV: bootstrap exception vector. -/
  bev : Bool
  /-- SR: software reset or NMI occurred. -/
  sr : Bool
  /-- IM[7:0]: interrupt mask. -/
  im : BitVec 8
  /-- KSU: 10 user, 01 supervisor, 00 kernel. -/
  ksu : BitVec 2
  /-- ERL: error level. -/
  erl : Bool
  /-- EXL: exception level. -/
  exl : Bool
  /-- IE: interrupt enable. -/
  ie : Bool
  deriving DecidableEq, Repr, Inhabited

/-- The Cause register's own storage (R44); IP[6:2] are the interrupt inputs and are stored in `Environment.intPins` (R57). -/
structure Cause where
  /-- BD: the last general exception was in a branch delay slot. -/
  bd : Bool
  /-- CE: number of the coprocessor of a coprocessor unusable exception. -/
  ce : BitVec 2
  /-- IP[7]: the timer latch. -/
  timer : Bool
  /-- IP[1:0]: the software interrupts. -/
  soft : BitVec 2
  /-- ExcCode. -/
  excCode : BitVec 5
  deriving DecidableEq, Repr, Inhabited

/-- The CP0 registers that hold state (R37); PRId and Config are constants of Sys2Proof.Config. -/
structure Cp0 where
  status : Status
  cause : Cause
  /-- R39. -/
  badVAddr : Word
  /-- R40. -/
  count : Word
  /-- R41. -/
  compare : Word
  /-- R45. -/
  epc : Word
  /-- R46. -/
  errorEPC : Word
  /-- R49. -/
  ebase : Word
  /-- R50: written by MTC0; no rule reads it. -/
  tagLo : Word
  /-- R50: written by MTC0; no rule reads it. -/
  tagHi : Word
  deriving DecidableEq, Repr, Inhabited

/-- A 64-byte cache line (R54), the byte at the lowest address first. -/
abbrev Line := Vector Byte 64

/-- One way of a cache set (R54, R55). `δ` is `Bool` where the way has a Dirty bit and `Unit` where it has none. -/
structure Way (δ : Type) where
  valid : Bool
  /-- VTag: virtual address bits 31:13. -/
  tag : BitVec 19
  data : Line
  dirty : δ
  deriving DecidableEq, Repr, Inhabited

/-- One set of a cache (R54, R55). `lru = false` says that WayA is the older block. -/
structure CacheSet (δ : Type) where
  lock : Bool
  lru : Bool
  a : Way δ
  b : Way δ
  deriving DecidableEq, Repr, Inhabited

/-- WayA or WayB (R54). -/
inductive WaySel where
  | a | b
  deriving DecidableEq, Repr, Inhabited

/-- The instruction cache (R54). -/
abbrev ICache := Vector (CacheSet Unit) 128

/-- The data cache (R55). -/
abbrev DCache := Vector (CacheSet Bool) 128

/-- A replaced line in the cache writeback buffer (R56): its virtual line address (low six bits 0) and its bytes. -/
structure Writeback where
  va : Word
  data : Line
  deriving DecidableEq, Repr, Inhabited

/-- A store in the non-cached write buffer (R56): its virtual address and its bytes, that of the lowest address first. -/
structure NcStore where
  va : Word
  bytes : List Byte
  deriving DecidableEq, Repr, Inhabited

/-- What a coprocessor shows beside its general registers (R34 to R36). -/
structure CopControl where
  /-- CCR[z] (R34). -/
  ccr : Vector Word 32
  /-- CpCond[z] (R35). -/
  cond : Bool
  /-- The model's own: CpCond[z] as it was before the last instruction that may write it (R366). -/
  oldCond : Bool
  /-- The exception request of R437 (used for z = 1): `some 0` is a request that stands now, `some n` one that stands from
  the `n`th step after this one on. -/
  excRequest : Option Nat
  deriving DecidableEq, Repr, Inhabited

/-- A coprocessor behind the interface of R33 to R36. -/
structure Coprocessor where
  /-- CPR[z] (R33). -/
  cpr : Vector Word 32
  ctl : CopControl
  deriving DecidableEq, Repr, Inhabited

/-- The kinds of access (R101). -/
inductive AccessKind where
  | fetch | load | store
  deriving DecidableEq, Repr, Inhabited

/-- What a physical address holds: the kinds that the parameter `PhysMem` tells apart (R6). -/
inductive RegionKind where
  /-- Reads give what was last written. -/
  | ram
  /-- Reads give the contents; a write by the core changes nothing. -/
  | rom
  /-- Device registers: what a read gives is the device's own (`Config.outsideByte`), and so is what a write does. -/
  | device
  /-- Nothing: what a read gives is the bus's own (`Config.outsideByte`), and a write changes nothing. -/
  | nothing
  deriving DecidableEq, Repr, Inhabited

/-- The physical addresses `lo` to `hi - 1`: what they hold, and for which kinds of access the bus signals an error on a read
(the parameters `PhysMem` and `BusError`, R6, R106). -/
structure Region where
  lo : Nat
  hi : Nat
  kind : RegionKind
  fetchError : Bool
  loadError : Bool
  storeError : Bool
  deriving DecidableEq, Repr, Inhabited

/-- What happens on the bus between two instructions: a transfer from a buffer to memory (R126), or a write by another bus
master (R464). -/
inductive BusEvent where
  /-- The line in the cache writeback buffer. -/
  | writeback
  /-- The store at this position of the non-cached write buffer, the oldest being 0. -/
  | store (k : Nat)
  /-- A byte that another bus master writes to physical memory. -/
  | outside (cell : Host.Cell)
  deriving DecidableEq, Repr, Inhabited

/-- What the outside does to the core just before one step (R6, R454, R464). -/
structure Input where
  /-- A hardware reset is signalled (R446). -/
  xrst : Bool
  /-- A software reset is signalled (R447). -/
  xsrst : Bool
  /-- An NMI is signalled (R448). -/
  xnmi : Bool
  /-- The inputs INT[5:0] from now on (R454). -/
  intPins : BitVec 6
  /-- `CountStep - 1` from now on (R453). -/
  countExtra : Nat
  /-- Which way a miss fills from now on when both are invalid (R111): WayB when true. -/
  fillWayB : Bool
  /-- Transfers from the buffers to memory (R126) and writes by other bus masters (R464), first to last. Their order is the
  input's, because R126, R128 and R464 give none: DESIGN CHOICE of the form (log entry 15). -/
  bus : List BusEvent
  deriving DecidableEq, Repr, Inhabited

/-- What lies outside the core (R6), as data that the step reads. -/
structure Environment where
  /-- One entry is read at the start of each step; with none left the levels below stay. -/
  inputs : List Input
  /-- INT[5:0] (R454); IP[6:2] of Cause are its low five bits. -/
  intPins : BitVec 6
  /-- `CountStep - 1` (R453). -/
  countExtra : Nat
  /-- The way filled when both are invalid (R111): WayB when true. -/
  fillWayB : Bool
  /-- `PhysMem` and `BusError` (R6): the first region that contains an address decides, and an address in none is RAM. -/
  map : List Region
  /-- How many steps have begun: the time at which the outside is asked for a byte. -/
  time : Nat
  deriving DecidableEq, Repr, Inhabited

/-- The kind of an executed instruction, as far as the required gaps of R510 ask for it. -/
inductive Retired where
  /-- MTC0 to Count or Compare (also R453). -/
  | mtc0Timer
  /-- MTC0 to another register. -/
  | mtc0
  /-- CTC1 or a COP1 operation, which may write the FPU condition. -/
  | fpuCond
  /-- Any other instruction. -/
  | other
  /-- No instruction: an exception was taken. -/
  | entry
  deriving DecidableEq, Repr, Inhabited

/-- The general exceptions with what each records (R420, R422). -/
inductive GeneralException where
  | int
  | adEL (va : Word)
  | adES (va : Word)
  | ibe
  | dbe
  | sys
  | bp
  | ri
  | cpU (z : BitVec 2)
  | ov
  | fpe
  deriving DecidableEq, Repr, Inhabited

/-- The error exceptions (R421). -/
inductive ErrorException where
  | hardwareReset | softwareReset | nmi
  deriving DecidableEq, Repr, Inhabited

/-- Physical memory: the bytes that differ from 0, by physical address, in rising order (Machine/Memory.lean). -/
abbrev Memory := List Host.Cell

/-- All that a hardware or software reset leaves unspecified (R58); `Config.afterReset` draws it. -/
structure Unspecified where
  regs : Vector Word 32
  hi : Word
  lo : Word
  llBit : Bool
  cp0 : Cp0
  icache : ICache
  dcache : DCache
  cop1 : Coprocessor
  cop2 : Coprocessor
  cop3 : Coprocessor
  deriving DecidableEq, Repr, Inhabited

end Sys2Proof.Machine
end

