-- ==== Sys2Proof/Config.lean ====
section
/-! DEFINITION. What an implementation fixes and what the spec leaves open (R6, 93_implementation_defined.md). Every constant
here is opaque: nothing can be proved of its value, and a statement that holds of it holds whatever it is. -/

namespace Sys2Proof

open Sys2Proof.Machine

/-- `PRID_VALUE` (R6, R47). -/
opaque Config.pridValue : Word

/-- `CONFIG_VALUE` (R6, R48). -/
opaque Config.configValue : Word

/-- `ReservedSet` (R6, R160): the words outside the opcode table that raise RI. -/
opaque Config.reservedSet : Word → Bool

/-- What lies outside the core when State.reset is left (R6): `PhysMem`'s map, `BusError`, `IntPins`, the XRST, XSRST and XNMI
events and `CountStep`. No default: nothing can be proved of it (log entry 13). -/
opaque Config.environment : Environment

/-- The byte that a read of a physical address gives at a time, where the address holds no memory (R6, R91, log entry 10). -/
opaque Config.outsideByte : Nat → Nat → Byte

/-- Whether RE = 1 in user mode also reverses the byte order of instruction fetch, which R83 leaves open (log entry 6). -/
opaque Config.fetchReversed : Bool

/-- The `n`th value that a rule calls `any` (R9, log entry 12). -/
opaque Config.freeWord : Nat → Word

/-- A byte that a rule calls `any`: of the `n`th draw, at an address (R9, log entry 12). -/
opaque Config.freeByte : Nat → Nat → Byte

/-- What the `n`th draw finds in the state that a reset leaves unspecified, which may depend on what was there before the reset
(R58, log entry 18). -/
opaque Config.afterReset : Nat → Unspecified → Unspecified

/-- `Cop[z].readControl` (R358, D40): the value CFCz reads from a control register. -/
opaque Config.copReadControl : Cop → Reg → CopControl → Nat → Word

/-- `Cop[z].writeControl` (R357, D40): the control state after CTCz writes a value to a control register. -/
opaque Config.copWriteControl : Cop → Reg → Word → CopControl → Nat → CopControl

/-- `Cop[z].operate` (R359): the coprocessor after an operation. -/
opaque Config.copOperate : Cop → BitVec 25 → Coprocessor → Nat → Coprocessor

end Sys2Proof
end

