-- ==== Sys2Proof/Machine/State.lean ====
section
/-! DEFINITION. The machine's state as plain data (10_state.md), the reasons a step stops, and the state after reset. -/

namespace Sys2Proof.Machine

/-- The state of the machine. -/
structure State where
  /-- r0 to r31 (R20). Entry 0 is 0 and is never read (R21). -/
  regs : Vector Word 32
  /-- The address of the instruction being executed (R24). -/
  pc : Word
  /-- The address of the instruction executed after it (R24). -/
  npc : Word
  /-- The instruction at `pc` is in the delay slot of the one executed before it (R24). -/
  inDelaySlot : Bool
  /-- R30. -/
  hi : Word
  /-- R30. -/
  lo : Word
  /-- R31. -/
  llBit : Bool
  cp0 : Cp0
  /-- R54. -/
  icache : ICache
  /-- R55. -/
  dcache : DCache
  /-- The cache writeback buffer (R56). -/
  writeback : Option Writeback
  /-- The non-cached write buffer, oldest first (R56). -/
  stores : List NcStore
  /-- Physical memory (R53). -/
  mem : Memory
  /-- The FPU (R32). -/
  cop1 : Coprocessor
  /-- The VFPU (R32). -/
  cop2 : Coprocessor
  /-- Coprocessor 3, reserved (R32, R362). -/
  cop3 : Coprocessor
  env : Environment
  /-- The model's own: the kind of the last executed instruction (R510). -/
  last1 : Retired
  /-- The model's own: the kind of the one before it (R510). -/
  last2 : Retired
  /-- The model's own: how many free values have been drawn (log entry 12). -/
  freeCount : Nat
  deriving DecidableEq, Repr

/-- Faults. The spec describes no way for the machine to stop: every condition it reports is an exception that the machine
takes and goes on from (R466), and every other stop is a refusal. The type is empty (log entry 32). -/
inductive Fault where
  deriving DecidableEq, Repr

/-- Why the model gives a step no meaning. Each is a case for which the spec says `refuse` (R9); stopping is safe. -/
inductive Refusal where
  /-- Raised by no instruction of this model (the name is the host's). Safe. -/
  | notModelled (mnemonic : String)
  /-- A step, or an address or CP0 check, with KSU = 11 and EXL = ERL = 0 (R51). Safe. -/
  | reservedMode
  /-- A jump or branch in a delay slot (R305). Safe. -/
  | transferInDelaySlot
  /-- ERET in a delay slot (R382). Safe. -/
  | eretInDelaySlot
  /-- ERET with an MTC0 among the two instructions before it (R383). Safe. -/
  | eretAfterMtc0
  /-- A coprocessor 3 instruction with CU3 = 1 (R362). Safe. -/
  | cop3Absent
  /-- CACHE with a code that Table 4-1 leaves blank (R387). Safe. -/
  | blankCacheCode
  /-- CACHE Fill, Fill with Lock or Create Dirty Exclusive on a non-cached address (R388). Safe. -/
  | cacheOpUncached
  /-- A word that no row of the opcode table matches and that `Config.reservedSet` does not reserve (R160). Safe. -/
  | unmatchedWord
  deriving DecidableEq, Repr

/-- A result of a meaning or a step. -/
abbrev Result := Host.Outcome State Fault Refusal

/-- A part of an instruction that may read or write memory: a value with the state after it, or the exception it raises, in
which case nothing of it has happened (R9), or a refusal. -/
inductive Access (α : Type) where
  | ok (v : α) (s : State)
  | raise (e : GeneralException)
  | refuse (r : Refusal)
  deriving DecidableEq, Repr

/-- An invalid way of zeros. -/
def emptyWay {δ : Type} (d : δ) : Way δ := { valid := false, tag := 0, data := Vector.replicate 64 0, dirty := d }

/-- A set of two invalid ways. DESIGN CHOICE (log entry 9): unlocked, and WayA the older, in both caches; R58 and R501 leave Lock and
LRU unspecified. -/
def emptySet {δ : Type} (d : δ) : CacheSet δ := { lock := false, lru := false, a := emptyWay d, b := emptyWay d }

/-- A coprocessor whose registers are 0 and that requests nothing. -/
def idleCop : Coprocessor :=
  { cpr := Vector.replicate 32 0
    ctl := { ccr := Vector.replicate 32 0, cond := false, oldCond := false, excRequest := none } }

/-- The CP0 registers after reset: BEV = ERL = 1 and SR = 0 (R58); the zeros are log entry 9. -/
def resetCp0 : Cp0 :=
  { status := { cu := 0, re := false, bev := true, sr := false, im := 0, ksu := 0, erl := true, exl := false, ie := false }
    cause := { bd := false, ce := 0, timer := false, soft := 0, excCode := 0 }
    badVAddr := 0, count := 0, compare := 0, epc := 0, errorEPC := 0, ebase := 0, tagLo := 0, tagHi := 0 }

/-- An outside in which nothing happens and every physical address is RAM; Count advances by 1 each step. For tests and
examples: State.reset does not use it. -/
def quietEnvironment : Environment :=
  { inputs := [], intPins := 0, countExtra := 0, fillWayB := false, map := [], time := 0 }

/-- The machine right after a hardware reset (R58, R500, R501). The spec states `pc`, `npc`, `inDelaySlot`, ERL, BEV, SR,
the instruction cache's Valid bits and that the buffers are empty; the outside is the configuration's (R6), and every other
value is log entry 9's. -/
def State.reset : State :=
  { regs := Vector.replicate 32 0
    pc := 0xBFC00000#32
    npc := 0xBFC00004#32
    inDelaySlot := false
    hi := 0
    lo := 0
    llBit := false
    cp0 := resetCp0
    icache := Vector.replicate 128 (emptySet ())
    dcache := Vector.replicate 128 (emptySet false)
    writeback := none
    stores := []
    mem := []
    cop1 := idleCop
    cop2 := idleCop
    cop3 := idleCop
    env := Config.environment
    last1 := .entry
    last2 := .entry
    freeCount := 0 }

end Sys2Proof.Machine
end

