-- ==== Sys2Proof/Machine/Ops.lean ====
section
/-! DEFINITION. The named operations on registers, on the program counter and on the status, taking an exception and
returning from one, and the coprocessor usable check. Memory is in Machine/Access.lean. -/

namespace Sys2Proof.Machine

/-! ## General and coprocessor registers -/

/-- `x[i]` (R9, R21). -/
def State.reg (s : State) (i : Reg) : Word := if i = 0#5 then 0 else s.regs[i.toNat]'i.isLt

/-- `x[i] <- v`: a write with `i = 0` has no effect (R9, R21). -/
def State.setReg (s : State) (i : Reg) (v : Word) : State :=
  { s with regs := if i = 0#5 then s.regs else s.regs.set i.toNat v i.isLt }

/-- Coprocessor `z` (R32). -/
def State.cop (s : State) : Cop → Coprocessor
  | .cp1 => s.cop1
  | .cp2 => s.cop2
  | .cp3 => s.cop3

/-- `s` with coprocessor `z` replaced. -/
def State.setCop (s : State) (z : Cop) (c : Coprocessor) : State :=
  { s with
    cop1 := match z with | .cp1 => c | .cp2 => s.cop1 | .cp3 => s.cop1
    cop2 := match z with | .cp1 => s.cop2 | .cp2 => c | .cp3 => s.cop2
    cop3 := match z with | .cp1 => s.cop3 | .cp2 => s.cop3 | .cp3 => c }

/-- `CPR[z][n]` (R33). -/
def State.cpr (s : State) (z : Cop) (n : Reg) : Word := (s.cop z).cpr[n.toNat]'n.isLt

/-- `CPR[z][n] <- v` (R33). -/
def State.setCpr (s : State) (z : Cop) (n : Reg) (v : Word) : State :=
  s.setCop z { s.cop z with cpr := (s.cop z).cpr.set n.toNat v n.isLt }

/-- `HI ## LO` (R30). -/
def State.acc (s : State) : BitVec 64 := s.hi ++ s.lo

/-- `HI ## LO <- v` (R30). -/
def State.setAcc (s : State) (v : BitVec 64) : State :=
  { s with hi := v.extractLsb' 32 32, lo := v.extractLsb' 0 32 }

/-! ## Free values (R9 `any`, log entry 12) -/

/-- The free value that the next rule to ask for one is given. -/
def State.freeWord (s : State) : Word := Config.freeWord s.freeCount

/-- The free value after it, for a rule that asks for two. -/
def State.freeWord2 (s : State) : Word := Config.freeWord (s.freeCount + 1)

/-- A free choice between two possibilities. -/
def State.freeBit (s : State) : Bool := s.freeWord.getLsbD 0

/-- `s` after `n` free values have been drawn. -/
def State.drawn (s : State) (n : Nat) : State := { s with freeCount := s.freeCount + n }

/-! ## Status and Cause as words (R42, R44) -/

/-- The Status register as MFC0 reads it (R42). -/
def Status.toWord (st : Status) : Word :=
  st.cu ++ 0#2 ++ BitVec.ofBool st.re ++ 0#2 ++ BitVec.ofBool st.bev ++ 0#1 ++ BitVec.ofBool st.sr ++ 0#4 ++ st.im
    ++ 0#3 ++ st.ksu ++ BitVec.ofBool st.erl ++ BitVec.ofBool st.exl ++ BitVec.ofBool st.ie

/-- The Status register after MTC0 writes `v` (R381, D10). -/
def Status.ofWord (v : Word) : Status :=
  { cu := v.extractLsb' 28 4, re := v.getLsbD 25, bev := v.getLsbD 22, sr := v.getLsbD 20, im := v.extractLsb' 8 8
    ksu := v.extractLsb' 3 2, erl := v.getLsbD 2, exl := v.getLsbD 1, ie := v.getLsbD 0 }

/-- IP[7:0] (R450): the timer latch, the inputs INT[4:0] and the software interrupts. -/
def State.pending (s : State) : BitVec 8 :=
  BitVec.ofBool s.cp0.cause.timer ++ s.env.intPins.extractLsb' 0 5 ++ s.cp0.cause.soft

/-- The Cause register as MFC0 reads it (R44, R380; positions are log entry 2). -/
def State.causeWord (s : State) : Word :=
  BitVec.ofBool s.cp0.cause.bd ++ 0#1 ++ s.cp0.cause.ce ++ 0#12 ++ s.pending ++ 0#1 ++ s.cp0.cause.excCode ++ 0#2

/-! ## Operating mode and interrupt enable (R51, R52) -/

/-- `Mode()`; none for KSU = 11 with EXL = ERL = 0 (R51). -/
def Status.mode (st : Status) : Option Mode :=
  if st.erl || st.exl then some .kernel
  else match st.ksu with
    | 0b00#2 => some .kernel
    | 0b01#2 => some .supervisor
    | 0b10#2 => some .user
    | _ => none

/-- `Mode()` (R51). -/
def State.mode (s : State) : Option Mode := s.cp0.status.mode

/-- Whether interrupts are enabled (R52). -/
def Status.interruptsEnabled (st : Status) : Bool := st.ie && !st.exl && !st.erl

/-- `IntCond`: enabled, and some pending interrupt is not masked (R452). -/
def State.interruptCondition (s : State) : Bool :=
  s.cp0.status.interruptsEnabled && (s.pending &&& s.cp0.status.im) != 0

/-- `BigEndian()` (R81). -/
def State.bigEndian (s : State) : Bool := s.mode == some .user && s.cp0.status.re

/-! ## The end of an instruction (R25 step 7, R26, R27) -/

/-- Step 7 after an instruction that is no jump or branch. -/
def State.retire (s : State) (k : Retired) : State :=
  { s with pc := s.npc, npc := s.npc + 4, inDelaySlot := false, last1 := k, last2 := s.last1 }

/-- Step 7 after a jump or a taken branch (R26). -/
def State.transfer (s : State) (target : Word) : State :=
  { s with pc := s.npc, npc := target, inDelaySlot := true, last1 := .other, last2 := s.last1 }

/-- Step 7 after a branch that is not taken and is no branch-likely (R26). -/
def State.fallThrough (s : State) : State :=
  { s with pc := s.npc, npc := s.npc + 4, inDelaySlot := true, last1 := .other, last2 := s.last1 }

/-- Step 7 after a branch-likely that is not taken (R27). -/
def State.nullify (s : State) : State :=
  { s with pc := s.npc + 4, npc := s.npc + 8, inDelaySlot := false, last1 := .other, last2 := s.last1 }

/-- An instruction that writes `v` to a general register and has no other effect. -/
def writeBack (rd : Reg) (v : Word) (s : State) : Result := .next ((s.setReg rd v).retire .other)

/-! ## Taking an exception (R440 to R444) -/

/-- The code of an exception (R420). -/
def GeneralException.code : GeneralException → BitVec 5
  | .int => 0
  | .adEL _ => 4
  | .adES _ => 5
  | .ibe => 6
  | .dbe => 7
  | .sys => 8
  | .bp => 9
  | .ri => 10
  | .cpU _ => 11
  | .ov => 12
  | .fpe => 15

/-- The address at which the interrupted program is resumed (R441, R445): the instruction at `pc`, or the jump or branch
before it when that instruction is in its delay slot. -/
def State.restartAddress (s : State) : Word := if s.inDelaySlot then s.pc - 4 else s.pc

/-- The general exception vector (R443). -/
def State.vector (s : State) : Word := if s.cp0.status.bev then 0xBFC00200#32 else s.cp0.ebase

/-- Cause.CE after the entry: the coprocessor of CpU, and a free value after any other exception (R444, D29). -/
def GeneralException.causeCE (e : GeneralException) (free : Word) : BitVec 2 :=
  match e with
  | .cpU z => z
  | .int | .adEL _ | .adES _ | .ibe | .dbe | .sys | .bp | .ri | .ov | .fpe => free.extractLsb' 0 2

/-- BadVAddr after the entry (R102, R440). -/
def GeneralException.badVAddr (e : GeneralException) (old : Word) : Word :=
  match e with
  | .adEL va => va
  | .adES va => va
  | .int | .ibe | .dbe | .sys | .bp | .ri | .cpU _ | .ov | .fpe => old

/-- General exception entry while the instruction at `pc` is the current one (R440). EPC and BD are kept when EXL is
already 1 (R442, log entry 8). -/
def takeException (e : GeneralException) (s : State) : State :=
  { s with
    cp0 := { s.cp0 with
      epc := if s.cp0.status.exl then s.cp0.epc else s.restartAddress
      badVAddr := e.badVAddr s.cp0.badVAddr
      cause := { s.cp0.cause with
        bd := if s.cp0.status.exl then s.cp0.cause.bd else s.inDelaySlot
        ce := e.causeCE s.freeWord
        excCode := e.code }
      status := { s.cp0.status with exl := true } }
    pc := s.vector
    npc := s.vector + 4
    inDelaySlot := false
    last1 := .entry
    last2 := .entry
    freeCount := s.freeCount + 1 }

/-- `raise e`: the instruction's outcome is the exception entry (R9). -/
def raise (e : GeneralException) (s : State) : Result := .next (takeException e s)

/-! ## Returning from an exception (R382, R449) -/

/-- Where ERET goes: ErrorEPC when ERL = 1, else EPC. -/
def State.returnAddress (s : State) : Word := if s.cp0.status.erl then s.cp0.errorEPC else s.cp0.epc

/-- The effect of ERET: ERL or EXL is cleared, and LLbit, and control goes to the return address without a delay slot. -/
def exceptionReturn (s : State) : State :=
  { s with
    cp0 := { s.cp0 with
      status := { s.cp0.status with
        erl := false
        exl := if s.cp0.status.erl then s.cp0.status.exl else false } }
    llBit := false
    pc := s.returnAddress
    npc := s.returnAddress + 4
    inDelaySlot := false
    last1 := .other
    last2 := s.last1 }

/-! ## The coprocessor usable check (R350) -/

/-- The number of a coprocessor (R32). -/
def copNumber : Cop → BitVec 2
  | .cp1 => 1
  | .cp2 => 2
  | .cp3 => 3

/-- `Usable(z)` for z = 1, 2, 3 (R350): `Status.CU[z] = 1`, in every mode. -/
def State.copUsable (s : State) (z : Cop) : Bool := s.cp0.status.cu.getLsbD (copNumber z).toNat

/-- Runs `k` where CP0 is usable (R350, R379): in kernel mode, or with CU0 = 1; else CpU(0). -/
def requireCp0 (s : State) (k : Result) : Result :=
  if s.cp0.status.cu.getLsbD 0 then k
  else match s.mode with
    | some .kernel => k
    | some .supervisor | some .user => raise (.cpU 0) s
    | none => .refused .reservedMode

/-- Runs `k` where coprocessor `z` is usable, else CpU(z) (R350); coprocessor 3 with CU3 = 1 is refused (R362). -/
def requireCop (z : Cop) (s : State) (k : Result) : Result :=
  if s.copUsable z then
    match z with
    | .cp1 | .cp2 => k
    | .cp3 => .refused .cop3Absent
  else raise (.cpU (copNumber z)) s

end Sys2Proof.Machine
end

