-- ==== Sys2Proof/Machine/Operands.lean ====
section
/-! DEFINITION. Operand forms: immediates, effective addresses, branch and jump targets, and the bit and byte operations of
the extended instructions (R8, R100, R148, 43_extended.md). -/

namespace Sys2Proof.Machine

/-- `sext_16` (R8, R148). -/
def signExtend16 (imm : Imm16) : Word := imm.signExtend 32

/-- `zext_16` (R8, R148). -/
def zeroExtend16 (imm : Imm16) : Word := imm.setWidth 32

/-- The LUI operand, `immediate ## 0^16` (R239). -/
def upperImmediate (imm : Imm16) : Word := imm ++ 0#16

/-- `vaddr = x[base] + sext_16(offset)` (R100). -/
def State.effectiveAddress (s : State) (base : Reg) (off : Imm16) : Word := s.reg base + signExtend16 off

/-- `BranchTarget(A, offset)` (R301; that the base is A + 4 is log entry 3). -/
def branchTarget (a : Word) (off : Imm16) : Word := a + 4 + (off ++ 0#2).signExtend 32

/-- `JumpTarget(A, target)` (R302, log entry 3). -/
def jumpTarget (a : Word) (target : BitVec 26) : Word := (a + 4).extractLsb' 28 4 ++ target ++ 0#2

/-- The link value, the address of the instruction after the delay slot (R303). -/
def linkValue (a : Word) : Word := a + 8

/-- `x[rs][4:0]`, a variable shift amount (R250). -/
def shiftAmount (v : Word) : BitVec 5 := v.extractLsb' 0 5

/-- `ror(v, n)` (R8). -/
def rotateRight (v : Word) (n : BitVec 5) : Word := (v >>> n.toNat) ||| (v <<< (32 - n.toNat))

/-- A word whose low `n` bits are 1. -/
def lowMask (n : Nat) : Word := BitVec.ofNat 32 (2 ^ n - 1)

/-- `zext_size(v[pos+size-1 : pos])` (R285). -/
def extractField (v : Word) (pos size : Nat) : Word := (v >>> pos) &&& lowMask size

/-- `old` with its `size` bits from `pos` on replaced by the low bits of `v` (R286). -/
def insertField (old v : Word) (pos size : Nat) : Word :=
  (old &&& ~~~(lowMask size <<< pos)) ||| ((v &&& lowMask size) <<< pos)

/-- `sext_8` of the low byte (R202, R287). -/
def signExtendByte (v : Word) : Word := (v.extractLsb' 0 8).signExtend 32

/-- `zext_8` of the low byte (R203). -/
def zeroExtendByte (v : Word) : Word := (v.extractLsb' 0 8).setWidth 32

/-- `sext_16` of the low halfword (R204, R288). -/
def signExtendHalf (v : Word) : Word := (v.extractLsb' 0 16).signExtend 32

/-- `zext_16` of the low halfword (R205). -/
def zeroExtendHalf (v : Word) : Word := (v.extractLsb' 0 16).setWidth 32

/-- The bytes swapped within each halfword (R292). -/
def swapBytesInHalves (v : Word) : Word :=
  v.extractLsb' 16 8 ++ v.extractLsb' 24 8 ++ v.extractLsb' 0 8 ++ v.extractLsb' 8 8

/-- The four bytes reversed (R293). -/
def swapBytes (v : Word) : Word :=
  v.extractLsb' 0 8 ++ v.extractLsb' 8 8 ++ v.extractLsb' 16 8 ++ v.extractLsb' 24 8

/-- The `n` low bits of `v` in reverse order (R294 for n = 32). -/
def reverseBits (v : Word) : Nat → Word
  | 0 => 0
  | n + 1 => (reverseBits v n <<< 1) ||| (BitVec.ofBool (v.getLsbD n)).setWidth 32

/-- How many of the `n` low bits, counted from bit `n - 1` downward, equal `b` before one that does not (R295, R296 for
n = 32). -/
def leadingCount (b : Bool) (v : Word) : Nat → Nat
  | 0 => 0
  | n + 1 => if v.getLsbD n = b then leadingCount b v n + 1 else 0

end Sys2Proof.Machine
end

