-- ==== Sys2Proof/Machine/Flags.lean ====
section
/-! DEFINITION. The core has no flags (R29): a comparison is a word or a branch condition, and overflow is an exception
(R231). These are the comparisons and the overflow test. -/

namespace Sys2Proof.Machine

/-- `signed(v)` lies in the range of a 32-bit two's complement number (R8). -/
def fitsSigned (i : Int) : Bool := decide (-2147483648 ≤ i) && decide (i ≤ 2147483647)

/-- Two's complement overflow of `a + b` (R231). -/
def addOverflows (a b : Word) : Bool := !fitsSigned (a.toInt + b.toInt)

/-- Two's complement overflow of `a - b` (R231). -/
def subOverflows (a b : Word) : Bool := !fitsSigned (a.toInt - b.toInt)

/-- `signed(a) < signed(b)`. -/
def lessSigned (a b : Word) : Bool := decide (a.toInt < b.toInt)

/-- `unsigned(a) < unsigned(b)`. -/
def lessUnsigned (a b : Word) : Bool := decide (a.toNat < b.toNat)

/-- `signed(v) < 0` (R309). -/
def isNegative (v : Word) : Bool := decide (v.toInt < 0)

/-- `signed(v) > 0` (R309). -/
def isPositive (v : Word) : Bool := decide (0 < v.toInt)

/-- The word 1 or 0. -/
def truthWord (b : Bool) : Word := if b then 1 else 0

end Sys2Proof.Machine
end

