-- ==== Sys2Proof/Machine/Alu.lean ====
section
/-! DEFINITION. The MIPS arithmetic, logical and shift instructions (41_alu.md). -/

namespace Sys2Proof.Machine

/-- ADDI (R232). -/
def execAddi (rs rt : Reg) (imm : Imm16) (s : State) : Result :=
  if addOverflows (s.reg rs) (signExtend16 imm) then raise .ov s
  else writeBack rt (s.reg rs + signExtend16 imm) s

/-- ADDIU (R233). -/
def execAddiu (rs rt : Reg) (imm : Imm16) (s : State) : Result :=
  writeBack rt (s.reg rs + signExtend16 imm) s

/-- SLTI (R234). -/
def execSlti (rs rt : Reg) (imm : Imm16) (s : State) : Result :=
  writeBack rt (truthWord (lessSigned (s.reg rs) (signExtend16 imm))) s

/-- SLTIU (R235). -/
def execSltiu (rs rt : Reg) (imm : Imm16) (s : State) : Result :=
  writeBack rt (truthWord (lessUnsigned (s.reg rs) (signExtend16 imm))) s

/-- ANDI (R236). -/
def execAndi (rs rt : Reg) (imm : Imm16) (s : State) : Result := writeBack rt (s.reg rs &&& zeroExtend16 imm) s

/-- ORI (R237). -/
def execOri (rs rt : Reg) (imm : Imm16) (s : State) : Result := writeBack rt (s.reg rs ||| zeroExtend16 imm) s

/-- XORI (R238). -/
def execXori (rs rt : Reg) (imm : Imm16) (s : State) : Result := writeBack rt (s.reg rs ^^^ zeroExtend16 imm) s

/-- LUI (R239). -/
def execLui (rt : Reg) (imm : Imm16) (s : State) : Result := writeBack rt (upperImmediate imm) s

/-- ADD (R240). -/
def execAdd (rs rt rd : Reg) (s : State) : Result :=
  if addOverflows (s.reg rs) (s.reg rt) then raise .ov s else writeBack rd (s.reg rs + s.reg rt) s

/-- ADDU (R241). -/
def execAddu (rs rt rd : Reg) (s : State) : Result := writeBack rd (s.reg rs + s.reg rt) s

/-- SUB (R242). -/
def execSub (rs rt rd : Reg) (s : State) : Result :=
  if subOverflows (s.reg rs) (s.reg rt) then raise .ov s else writeBack rd (s.reg rs - s.reg rt) s

/-- SUBU (R243). -/
def execSubu (rs rt rd : Reg) (s : State) : Result := writeBack rd (s.reg rs - s.reg rt) s

/-- SLT (R244). -/
def execSlt (rs rt rd : Reg) (s : State) : Result := writeBack rd (truthWord (lessSigned (s.reg rs) (s.reg rt))) s

/-- SLTU (R245). -/
def execSltu (rs rt rd : Reg) (s : State) : Result := writeBack rd (truthWord (lessUnsigned (s.reg rs) (s.reg rt))) s

/-- AND (R246). -/
def execAnd (rs rt rd : Reg) (s : State) : Result := writeBack rd (s.reg rs &&& s.reg rt) s

/-- OR (R247). -/
def execOr (rs rt rd : Reg) (s : State) : Result := writeBack rd (s.reg rs ||| s.reg rt) s

/-- XOR (R248). -/
def execXor (rs rt rd : Reg) (s : State) : Result := writeBack rd (s.reg rs ^^^ s.reg rt) s

/-- NOR (R249). -/
def execNor (rs rt rd : Reg) (s : State) : Result := writeBack rd (~~~(s.reg rs ||| s.reg rt)) s

/-- SLL (R251). -/
def execSll (rt rd : Reg) (sa : BitVec 5) (s : State) : Result := writeBack rd (s.reg rt <<< sa.toNat) s

/-- SRL (R252). -/
def execSrl (rt rd : Reg) (sa : BitVec 5) (s : State) : Result := writeBack rd (s.reg rt >>> sa.toNat) s

/-- SRA (R253). -/
def execSra (rt rd : Reg) (sa : BitVec 5) (s : State) : Result := writeBack rd ((s.reg rt).sshiftRight sa.toNat) s

/-- SLLV (R254). -/
def execSllv (rs rt rd : Reg) (s : State) : Result := writeBack rd (s.reg rt <<< (shiftAmount (s.reg rs)).toNat) s

/-- SRLV (R255). -/
def execSrlv (rs rt rd : Reg) (s : State) : Result := writeBack rd (s.reg rt >>> (shiftAmount (s.reg rs)).toNat) s

/-- SRAV (R256). -/
def execSrav (rs rt rd : Reg) (s : State) : Result :=
  writeBack rd ((s.reg rt).sshiftRight (shiftAmount (s.reg rs)).toNat) s

end Sys2Proof.Machine
end

