-- ==== Sys2Proof/Machine/Branch.lean ====
section
/-! DEFINITION. Jumps and branches (44_jump_branch.md). -/

namespace Sys2Proof.Machine

/-- A jump to `target`, after the link register, if any, has been written (R300, R305). -/
def jump (target : Word) (link : State → State) (s : State) : Result :=
  if s.inDelaySlot then .refused .transferInDelaySlot else .next ((link s).transfer target)

/-- A branch (R300, R301, R305). -/
def branch (taken : Bool) (off : Imm16) (s : State) : Result :=
  if s.inDelaySlot then .refused .transferInDelaySlot
  else .next (if taken then s.transfer (branchTarget s.pc off) else s.fallThrough)

/-- A branch-likely (R304). -/
def branchLikely (taken : Bool) (off : Imm16) (s : State) : Result :=
  if s.inDelaySlot then .refused .transferInDelaySlot
  else .next (if taken then s.transfer (branchTarget s.pc off) else s.nullify)

/-- The link of an and-link branch: r31 receives A + 8 when the branch is taken and, when it is not, either that or its old
value, freely (R320, D24). -/
def State.branchLink (s : State) (taken : Bool) : State :=
  (s.setReg 31 (if taken || s.freeBit then linkValue s.pc else s.reg 31)).drawn (if taken then 0 else 1)

/-- J (R310). -/
def execJ (target : BitVec 26) (s : State) : Result := jump (jumpTarget s.pc target) id s

/-- JAL (R311). -/
def execJal (target : BitVec 26) (s : State) : Result :=
  jump (jumpTarget s.pc target) (fun t => t.setReg 31 (linkValue t.pc)) s

/-- JR (R312). -/
def execJr (rs : Reg) (s : State) : Result := jump (s.reg rs) id s

/-- JALR (R313): the target is read before the link is written (D23). -/
def execJalr (rs rd : Reg) (s : State) : Result := jump (s.reg rs) (fun t => t.setReg rd (linkValue t.pc)) s

/-- BEQ (R314). -/
def execBeq (rs rt : Reg) (off : Imm16) (s : State) : Result := branch (s.reg rs == s.reg rt) off s

/-- BNE (R315). -/
def execBne (rs rt : Reg) (off : Imm16) (s : State) : Result := branch (s.reg rs != s.reg rt) off s

/-- BLEZ (R316). -/
def execBlez (rs : Reg) (off : Imm16) (s : State) : Result := branch (!isPositive (s.reg rs)) off s

/-- BGTZ (R317). -/
def execBgtz (rs : Reg) (off : Imm16) (s : State) : Result := branch (isPositive (s.reg rs)) off s

/-- BLTZ (R318). -/
def execBltz (rs : Reg) (off : Imm16) (s : State) : Result := branch (isNegative (s.reg rs)) off s

/-- BGEZ (R319). -/
def execBgez (rs : Reg) (off : Imm16) (s : State) : Result := branch (!isNegative (s.reg rs)) off s

/-- BLTZAL (R320). -/
def execBltzal (rs : Reg) (off : Imm16) (s : State) : Result :=
  branch (isNegative (s.reg rs)) off (s.branchLink (isNegative (s.reg rs)))

/-- BGEZAL (R321). -/
def execBgezal (rs : Reg) (off : Imm16) (s : State) : Result :=
  branch (!isNegative (s.reg rs)) off (s.branchLink (!isNegative (s.reg rs)))

/-- BEQL (R322). -/
def execBeql (rs rt : Reg) (off : Imm16) (s : State) : Result := branchLikely (s.reg rs == s.reg rt) off s

/-- BNEL (R323). -/
def execBnel (rs rt : Reg) (off : Imm16) (s : State) : Result := branchLikely (s.reg rs != s.reg rt) off s

/-- BLEZL (R324). -/
def execBlezl (rs : Reg) (off : Imm16) (s : State) : Result := branchLikely (!isPositive (s.reg rs)) off s

/-- BGTZL (R325). -/
def execBgtzl (rs : Reg) (off : Imm16) (s : State) : Result := branchLikely (isPositive (s.reg rs)) off s

/-- BLTZL (R326). -/
def execBltzl (rs : Reg) (off : Imm16) (s : State) : Result := branchLikely (isNegative (s.reg rs)) off s

/-- BGEZL (R327). -/
def execBgezl (rs : Reg) (off : Imm16) (s : State) : Result := branchLikely (!isNegative (s.reg rs)) off s

/-- BLTZALL (R328). -/
def execBltzall (rs : Reg) (off : Imm16) (s : State) : Result :=
  branchLikely (isNegative (s.reg rs)) off (s.branchLink (isNegative (s.reg rs)))

/-- BGEZALL (R329). -/
def execBgezall (rs : Reg) (off : Imm16) (s : State) : Result :=
  branchLikely (!isNegative (s.reg rs)) off (s.branchLink (!isNegative (s.reg rs)))

end Sys2Proof.Machine
end

