-- ==== Sys2Proof/WellFormed.lean ====
section
/-! DEFINITION. Which terms of the syntax an instruction word can carry. Every operand has the width of its field; the two
selector fields that the syntax names (CP0 register number, CACHE operation) must carry, under their catch-all
constructors, only the numbers that the spec leaves without a name (R37, R387). -/

namespace Sys2Proof

/-- The CP0 numbers that R37 lists as "Reserved". -/
def cp0ReservedNumbers : List Reg :=
  [0, 1, 2, 3, 4, 5, 6, 7, 10, 17, 18, 19, 20, 21, 22, 23, 24, 26, 27, 31]

/-- The CACHE codes that Table 4-1 leaves blank (R386, R387). -/
def cacheBlankCodes : List (BitVec 5) :=
  [0, 1, 2, 3, 5, 7, 9, 12, 13, 14, 15, 16, 17, 18, 19, 21, 23, 29]

/-- `reserved n` carries a reserved number only. -/
def Cp0Reg.wellFormed : Cp0Reg → Bool
  | .reserved n => cp0ReservedNumbers.contains n
  | .badVAddr | .count | .compare | .status | .cause | .epc | .prId | .config | .ebase | .tagLo | .tagHi | .errorEPC => true

/-- `blank f` carries a blank code only. -/
def CacheOp.wellFormed : CacheOp → Bool
  | .blank f => cacheBlankCodes.contains f
  | .indexInvalidateI | .indexUnlockI | .hitInvalidateI | .fillI | .fillLockI | .indexWritebackInvalidateD
  | .indexUnlockD | .createDirtyD | .hitInvalidateD | .hitWritebackD | .hitWritebackInvalidateD
  | .createDirtyLockD | .fillD | .fillLockD => true

/-- An instruction term that some instruction word stands for. -/
def Instr.wellFormed : Instr → Bool
  | .mfc0 _ rd | .mtc0 _ rd => rd.wellFormed
  | .cache _ op _ => op.wellFormed
  | .lb .. | .lbu .. | .lh .. | .lhu .. | .lwl .. | .lwr .. | .ll .. | .lw .. | .sb .. | .sh .. | .swl ..
  | .swr .. | .sc .. | .sw .. | .addi .. | .addiu .. | .slti .. | .sltiu .. | .andi .. | .ori .. | .xori ..
  | .lui .. | .add .. | .addu .. | .sub .. | .subu .. | .slt .. | .sltu .. | .and .. | .or .. | .xor ..
  | .nor .. | .sll .. | .srl .. | .sra .. | .sllv .. | .srlv .. | .srav .. | .mult .. | .multu .. | .div ..
  | .divu .. | .mfhi .. | .mflo .. | .mthi .. | .mtlo .. | .madd .. | .maddu .. | .msub .. | .msubu ..
  | .max .. | .min .. | .movn .. | .movz .. | .ext .. | .ins .. | .seb .. | .seh .. | .rotr .. | .rotrv ..
  | .wsbh .. | .wsbw .. | .bitrev .. | .clz .. | .clo .. | .j .. | .jal .. | .jr .. | .jalr .. | .beq ..
  | .bne .. | .blez .. | .bgtz .. | .bltz .. | .bgez .. | .bltzal .. | .bgezal .. | .bltzl .. | .bgezl ..
  | .bltzall .. | .bgezall .. | .beql .. | .bnel .. | .blezl .. | .bgtzl .. | .syscall .. | .brk .. | .sync
  | .lwc1 .. | .swc1 .. | .mtc1 .. | .mfc1 .. | .ctc1 .. | .cfc1 .. | .cop1 .. | .bc1f .. | .bc1t ..
  | .bc1fl .. | .bc1tl .. | .lwc2 .. | .swc2 .. | .mtc2 .. | .mfc2 .. | .ctc2 .. | .cfc2 .. | .cop2 ..
  | .bc2f .. | .bc2t .. | .bc2fl .. | .bc2tl .. | .lwc3 .. | .swc3 .. | .mtc3 .. | .mfc3 .. | .ctc3 ..
  | .cfc3 .. | .cop3 .. | .bc3f .. | .bc3t .. | .bc3fl .. | .bc3tl .. | .eret => true

end Sys2Proof
end

