-- ==== Sys2Proof/Decode.lean ====
section
/-! DEFINITION. Decoding (30_encoding.md R151 to R157, opcode_table.json) and, after it, the encoder. Every number here is
the spec's own, which it marks as general knowledge (93_implementation_defined.md GK1, GK10, GK11; log entry 1). -/

namespace Sys2Proof

/-! ## Fields (R10, R142 to R147) -/

/-- Bits 31:26, the major opcode. -/
def fOp (w : Word) : BitVec 6 := w.extractLsb' 26 6
/-- Bits 25:21, `rs` or `base`. -/
def fRs (w : Word) : Reg := w.extractLsb' 21 5
/-- Bits 20:16, `rt`. -/
def fRt (w : Word) : Reg := w.extractLsb' 16 5
/-- Bits 15:11, `rd`. -/
def fRd (w : Word) : Reg := w.extractLsb' 11 5
/-- Bits 10:6, `sa`. -/
def fSa (w : Word) : BitVec 5 := w.extractLsb' 6 5
/-- Bits 5:0, `func`. -/
def fFunc (w : Word) : BitVec 6 := w.extractLsb' 0 6
/-- Bits 15:0, `immediate` or `offset`. -/
def fImm (w : Word) : Imm16 := w.extractLsb' 0 16
/-- Bits 25:0, `target`. -/
def fTarget (w : Word) : BitVec 26 := w.extractLsb' 0 26
/-- Bits 25:6, `code`. -/
def fCode (w : Word) : BitVec 20 := w.extractLsb' 6 20
/-- Bits 24:0, `cofun` (GK10). -/
def fCofun (w : Word) : BitVec 25 := w.extractLsb' 0 25

/-- Why a word is no row of the opcode table (R160). -/
inductive Undecodable where
  /-- The major opcode is a blank cell of R153. -/
  | majorOpcode
  /-- The SPECIAL `func` is a blank cell of R154. -/
  | specialFunc
  /-- The REGIMM code is not in R155. -/
  | regimmCode
  /-- The SPECIAL3 `func` and `sa` are not in R156. -/
  | special3Code
  /-- Bits 25:21 (or 20:16 of a BC) of a COP1, COP2 or COP3 word are not in R157. -/
  | copCode
  /-- A COP0 word other than MFC0, MTC0 and ERET (R157). -/
  | cop0Word
  /-- A field that the format leaves blank is not zero (R152). -/
  | blankField
  deriving DecidableEq, Repr

/-- The instruction, when the fields that its format leaves blank have their required value (R152). -/
def blank (ok : Bool) (i : Instr) : Except Undecodable Instr :=
  if ok then .ok i else .error .blankField

/-- The CP0 register of number `n` (R37). -/
def cp0Reg (n : Reg) : Cp0Reg :=
  match n with
  | 8#5 => .badVAddr | 9#5 => .count | 11#5 => .compare | 12#5 => .status | 13#5 => .cause | 14#5 => .epc
  | 15#5 => .prId | 16#5 => .config | 25#5 => .ebase | 28#5 => .tagLo | 29#5 => .tagHi | 30#5 => .errorEPC
  | _ => .reserved n

/-- The cache operation of code `f` (R386). -/
def cacheOp (f : BitVec 5) : CacheOp :=
  match f with
  | 4#5 => .indexInvalidateI | 6#5 => .indexUnlockI | 8#5 => .hitInvalidateI | 10#5 => .fillI | 11#5 => .fillLockI
  | 20#5 => .indexWritebackInvalidateD | 22#5 => .indexUnlockD | 24#5 => .createDirtyD | 25#5 => .hitInvalidateD
  | 26#5 => .hitWritebackD | 27#5 => .hitWritebackInvalidateD | 28#5 => .createDirtyLockD | 30#5 => .fillD
  | 31#5 => .fillLockD
  | _ => .blank f

/-- `op = 000000`, selected by `func` (R154); SRL and ROTR by bits 25:21, SRLV and ROTRV by bits 10:6 (GK11). -/
def decodeSpecial (w : Word) : Except Undecodable Instr :=
  match fFunc w with
  | 0x20#6 => blank (fSa w == 0) (.add (fRs w) (fRt w) (fRd w))
  | 0x21#6 => blank (fSa w == 0) (.addu (fRs w) (fRt w) (fRd w))
  | 0x22#6 => blank (fSa w == 0) (.sub (fRs w) (fRt w) (fRd w))
  | 0x23#6 => blank (fSa w == 0) (.subu (fRs w) (fRt w) (fRd w))
  | 0x2A#6 => blank (fSa w == 0) (.slt (fRs w) (fRt w) (fRd w))
  | 0x2B#6 => blank (fSa w == 0) (.sltu (fRs w) (fRt w) (fRd w))
  | 0x24#6 => blank (fSa w == 0) (.and (fRs w) (fRt w) (fRd w))
  | 0x25#6 => blank (fSa w == 0) (.or (fRs w) (fRt w) (fRd w))
  | 0x26#6 => blank (fSa w == 0) (.xor (fRs w) (fRt w) (fRd w))
  | 0x27#6 => blank (fSa w == 0) (.nor (fRs w) (fRt w) (fRd w))
  | 0x00#6 => blank (fRs w == 0) (.sll (fRt w) (fRd w) (fSa w))
  | 0x02#6 => if fRs w = 0 then .ok (.srl (fRt w) (fRd w) (fSa w)) else blank (fRs w == 1) (.rotr (fRt w) (fRd w) (fSa w))
  | 0x03#6 => blank (fRs w == 0) (.sra (fRt w) (fRd w) (fSa w))
  | 0x04#6 => blank (fSa w == 0) (.sllv (fRs w) (fRt w) (fRd w))
  | 0x06#6 => if fSa w = 0 then .ok (.srlv (fRs w) (fRt w) (fRd w)) else blank (fSa w == 1) (.rotrv (fRs w) (fRt w) (fRd w))
  | 0x07#6 => blank (fSa w == 0) (.srav (fRs w) (fRt w) (fRd w))
  | 0x18#6 => blank (fRd w == 0 && fSa w == 0) (.mult (fRs w) (fRt w))
  | 0x19#6 => blank (fRd w == 0 && fSa w == 0) (.multu (fRs w) (fRt w))
  | 0x1A#6 => blank (fRd w == 0 && fSa w == 0) (.div (fRs w) (fRt w))
  | 0x1B#6 => blank (fRd w == 0 && fSa w == 0) (.divu (fRs w) (fRt w))
  | 0x10#6 => blank (fRs w == 0 && fRt w == 0 && fSa w == 0) (.mfhi (fRd w))
  | 0x12#6 => blank (fRs w == 0 && fRt w == 0 && fSa w == 0) (.mflo (fRd w))
  | 0x11#6 => blank (fRt w == 0 && fRd w == 0 && fSa w == 0) (.mthi (fRs w))
  | 0x13#6 => blank (fRt w == 0 && fRd w == 0 && fSa w == 0) (.mtlo (fRs w))
  | 0x1C#6 => blank (fRd w == 0 && fSa w == 0) (.madd (fRs w) (fRt w))
  | 0x1D#6 => blank (fRd w == 0 && fSa w == 0) (.maddu (fRs w) (fRt w))
  | 0x2E#6 => blank (fRd w == 0 && fSa w == 0) (.msub (fRs w) (fRt w))
  | 0x2F#6 => blank (fRd w == 0 && fSa w == 0) (.msubu (fRs w) (fRt w))
  | 0x2C#6 => blank (fSa w == 0) (.max (fRs w) (fRt w) (fRd w))
  | 0x2D#6 => blank (fSa w == 0) (.min (fRs w) (fRt w) (fRd w))
  | 0x0B#6 => blank (fSa w == 0) (.movn (fRs w) (fRt w) (fRd w))
  | 0x0A#6 => blank (fSa w == 0) (.movz (fRs w) (fRt w) (fRd w))
  | 0x16#6 => blank (fRt w == 0 && fSa w == 0) (.clz (fRs w) (fRd w))
  | 0x17#6 => blank (fRt w == 0 && fSa w == 0) (.clo (fRs w) (fRd w))
  | 0x08#6 => blank (fRt w == 0 && fRd w == 0 && fSa w == 0) (.jr (fRs w))
  | 0x09#6 => blank (fRt w == 0 && fSa w == 0) (.jalr (fRs w) (fRd w))
  | 0x0C#6 => .ok (.syscall (fCode w))
  | 0x0D#6 => .ok (.brk (fCode w))
  | 0x0F#6 => blank (fRs w == 0 && fRt w == 0 && fRd w == 0 && fSa w == 0) .sync
  | _ => .error .specialFunc

/-- `op = 000001`, selected by bits 20:16 (R155). -/
def decodeRegimm (w : Word) : Except Undecodable Instr :=
  match fRt w with
  | 0x00#5 => .ok (.bltz (fRs w) (fImm w))
  | 0x01#5 => .ok (.bgez (fRs w) (fImm w))
  | 0x10#5 => .ok (.bltzal (fRs w) (fImm w))
  | 0x11#5 => .ok (.bgezal (fRs w) (fImm w))
  | 0x02#5 => .ok (.bltzl (fRs w) (fImm w))
  | 0x03#5 => .ok (.bgezl (fRs w) (fImm w))
  | 0x12#5 => .ok (.bltzall (fRs w) (fImm w))
  | 0x13#5 => .ok (.bgezall (fRs w) (fImm w))
  | _ => .error .regimmCode

/-- `op = 011111`, `func = 100000`, selected by `sa`, with `rs` zero (R156). -/
def decodeBshfl (w : Word) : Except Undecodable Instr :=
  match fSa w with
  | 0x10#5 => blank (fRs w == 0) (.seb (fRt w) (fRd w))
  | 0x18#5 => blank (fRs w == 0) (.seh (fRt w) (fRd w))
  | 0x02#5 => blank (fRs w == 0) (.wsbh (fRt w) (fRd w))
  | 0x03#5 => blank (fRs w == 0) (.wsbw (fRt w) (fRd w))
  | 0x14#5 => blank (fRs w == 0) (.bitrev (fRt w) (fRd w))
  | _ => .error .special3Code

/-- `op = 011111`, selected by `func` (R156). -/
def decodeSpecial3 (w : Word) : Except Undecodable Instr :=
  match fFunc w with
  | 0x00#6 => .ok (.ext (fRs w) (fRt w) (fRd w) (fSa w))
  | 0x04#6 => .ok (.ins (fRs w) (fRt w) (fRd w) (fSa w))
  | 0x20#6 => decodeBshfl w
  | _ => .error .special3Code

/-- `op = 010000`: MFC0, MTC0 and ERET only (R157). -/
def decodeCop0 (w : Word) : Except Undecodable Instr :=
  match fRs w with
  | 0x00#5 => blank (w.extractLsb' 0 11 == 0) (.mfc0 (fRt w) (cp0Reg (fRd w)))
  | 0x04#5 => blank (w.extractLsb' 0 11 == 0) (.mtc0 (fRt w) (cp0Reg (fRd w)))
  | 0x10#5 => if w = 0x42000018#32 then .ok .eret else .error .cop0Word
  | _ => .error .cop0Word

/-- `op = 010001`: coprocessor 1, selected by bits 25:21, a BC by bits 20:16, an operation by bit 25 (R157, GK10). -/
def decodeCop1 (w : Word) : Except Undecodable Instr :=
  if w.getLsbD 25 then .ok (.cop1 (fCofun w)) else
  match fRs w with
  | 0x00#5 => blank (w.extractLsb' 0 11 == 0) (.mfc1 (fRt w) (fRd w))
  | 0x02#5 => blank (w.extractLsb' 0 11 == 0) (.cfc1 (fRt w) (fRd w))
  | 0x04#5 => blank (w.extractLsb' 0 11 == 0) (.mtc1 (fRt w) (fRd w))
  | 0x06#5 => blank (w.extractLsb' 0 11 == 0) (.ctc1 (fRt w) (fRd w))
  | 0x08#5 =>
    match fRt w with
    | 0x00#5 => .ok (.bc1f (fImm w))
    | 0x01#5 => .ok (.bc1t (fImm w))
    | 0x02#5 => .ok (.bc1fl (fImm w))
    | 0x03#5 => .ok (.bc1tl (fImm w))
    | _ => .error .copCode
  | _ => .error .copCode

/-- `op = 010010`: coprocessor 2, selected by bits 25:21, a BC by bits 20:16, an operation by bit 25 (R157, GK10). -/
def decodeCop2 (w : Word) : Except Undecodable Instr :=
  if w.getLsbD 25 then .ok (.cop2 (fCofun w)) else
  match fRs w with
  | 0x00#5 => blank (w.extractLsb' 0 11 == 0) (.mfc2 (fRt w) (fRd w))
  | 0x02#5 => blank (w.extractLsb' 0 11 == 0) (.cfc2 (fRt w) (fRd w))
  | 0x04#5 => blank (w.extractLsb' 0 11 == 0) (.mtc2 (fRt w) (fRd w))
  | 0x06#5 => blank (w.extractLsb' 0 11 == 0) (.ctc2 (fRt w) (fRd w))
  | 0x08#5 =>
    match fRt w with
    | 0x00#5 => .ok (.bc2f (fImm w))
    | 0x01#5 => .ok (.bc2t (fImm w))
    | 0x02#5 => .ok (.bc2fl (fImm w))
    | 0x03#5 => .ok (.bc2tl (fImm w))
    | _ => .error .copCode
  | _ => .error .copCode

/-- `op = 010011`: coprocessor 3, selected by bits 25:21, a BC by bits 20:16, an operation by bit 25 (R157, GK10). -/
def decodeCop3 (w : Word) : Except Undecodable Instr :=
  if w.getLsbD 25 then .ok (.cop3 (fCofun w)) else
  match fRs w with
  | 0x00#5 => blank (w.extractLsb' 0 11 == 0) (.mfc3 (fRt w) (fRd w))
  | 0x02#5 => blank (w.extractLsb' 0 11 == 0) (.cfc3 (fRt w) (fRd w))
  | 0x04#5 => blank (w.extractLsb' 0 11 == 0) (.mtc3 (fRt w) (fRd w))
  | 0x06#5 => blank (w.extractLsb' 0 11 == 0) (.ctc3 (fRt w) (fRd w))
  | 0x08#5 =>
    match fRt w with
    | 0x00#5 => .ok (.bc3f (fImm w))
    | 0x01#5 => .ok (.bc3t (fImm w))
    | 0x02#5 => .ok (.bc3fl (fImm w))
    | 0x03#5 => .ok (.bc3tl (fImm w))
    | _ => .error .copCode
  | _ => .error .copCode

/-- The instruction that a word stands for, or why it stands for none (R151, R153, R160). -/
def decode (w : Word) : Except Undecodable Instr :=
  match fOp w with
  | 0x00#6 => decodeSpecial w
  | 0x01#6 => decodeRegimm w
  | 0x10#6 => decodeCop0 w
  | 0x11#6 => decodeCop1 w
  | 0x12#6 => decodeCop2 w
  | 0x13#6 => decodeCop3 w
  | 0x1F#6 => decodeSpecial3 w
  | 0x20#6 => .ok (.lb (fRs w) (fRt w) (fImm w))
  | 0x24#6 => .ok (.lbu (fRs w) (fRt w) (fImm w))
  | 0x21#6 => .ok (.lh (fRs w) (fRt w) (fImm w))
  | 0x25#6 => .ok (.lhu (fRs w) (fRt w) (fImm w))
  | 0x22#6 => .ok (.lwl (fRs w) (fRt w) (fImm w))
  | 0x26#6 => .ok (.lwr (fRs w) (fRt w) (fImm w))
  | 0x30#6 => .ok (.ll (fRs w) (fRt w) (fImm w))
  | 0x23#6 => .ok (.lw (fRs w) (fRt w) (fImm w))
  | 0x28#6 => .ok (.sb (fRs w) (fRt w) (fImm w))
  | 0x29#6 => .ok (.sh (fRs w) (fRt w) (fImm w))
  | 0x2A#6 => .ok (.swl (fRs w) (fRt w) (fImm w))
  | 0x2E#6 => .ok (.swr (fRs w) (fRt w) (fImm w))
  | 0x38#6 => .ok (.sc (fRs w) (fRt w) (fImm w))
  | 0x2B#6 => .ok (.sw (fRs w) (fRt w) (fImm w))
  | 0x08#6 => .ok (.addi (fRs w) (fRt w) (fImm w))
  | 0x09#6 => .ok (.addiu (fRs w) (fRt w) (fImm w))
  | 0x0A#6 => .ok (.slti (fRs w) (fRt w) (fImm w))
  | 0x0B#6 => .ok (.sltiu (fRs w) (fRt w) (fImm w))
  | 0x0C#6 => .ok (.andi (fRs w) (fRt w) (fImm w))
  | 0x0D#6 => .ok (.ori (fRs w) (fRt w) (fImm w))
  | 0x0E#6 => .ok (.xori (fRs w) (fRt w) (fImm w))
  | 0x0F#6 => blank (fRs w == 0) (.lui (fRt w) (fImm w))
  | 0x02#6 => .ok (.j (fTarget w))
  | 0x03#6 => .ok (.jal (fTarget w))
  | 0x04#6 => .ok (.beq (fRs w) (fRt w) (fImm w))
  | 0x05#6 => .ok (.bne (fRs w) (fRt w) (fImm w))
  | 0x06#6 => blank (fRt w == 0) (.blez (fRs w) (fImm w))
  | 0x07#6 => blank (fRt w == 0) (.bgtz (fRs w) (fImm w))
  | 0x14#6 => .ok (.beql (fRs w) (fRt w) (fImm w))
  | 0x15#6 => .ok (.bnel (fRs w) (fRt w) (fImm w))
  | 0x16#6 => blank (fRt w == 0) (.blezl (fRs w) (fImm w))
  | 0x17#6 => blank (fRt w == 0) (.bgtzl (fRs w) (fImm w))
  | 0x31#6 => .ok (.lwc1 (fRs w) (fRt w) (fImm w))
  | 0x39#6 => .ok (.swc1 (fRs w) (fRt w) (fImm w))
  | 0x32#6 => .ok (.lwc2 (fRs w) (fRt w) (fImm w))
  | 0x3A#6 => .ok (.swc2 (fRs w) (fRt w) (fImm w))
  | 0x33#6 => .ok (.lwc3 (fRs w) (fRt w) (fImm w))
  | 0x3B#6 => .ok (.swc3 (fRs w) (fRt w) (fImm w))
  | 0x2F#6 => .ok (.cache (fRs w) (cacheOp (fRt w)) (fImm w))
  | _ => .error .majorOpcode

/-! ## Instruction words as bytes (R84) -/

/-- The word whose little-endian bytes are `bs`, the first at the lowest address (R82, R84). -/
def leWord : List Byte → Word
  | [] => 0
  | b :: bs => (leWord bs <<< 8) ||| b.setWidth 32

/-- The `n` low bytes of `v` in little-endian order (R82). -/
def leBytes : Nat → Word → List Byte
  | 0, _ => []
  | n + 1, v => v.setWidth 8 :: leBytes n (v >>> 8)

/-- The instruction in a list of bytes, with the bytes after it. -/
def decodeBytes : List Byte → Option (Instr × List Byte)
  | b0 :: b1 :: b2 :: b3 :: rest =>
    match decode (leWord [b0, b1, b2, b3]) with
    | .ok i => some (i, rest)
    | .error _ => none
  | _ => none

/-- The instruction the decoder reads from the `nbits` bits `w`, laid out as the hardware stores them. -/
def decodeTableWord (nbits w : Nat) : Option Instr :=
  match decodeBytes (leBytes 4 (BitVec.ofNat 32 (w % 2 ^ nbits))) with
  | some (i, _) => some i
  | none => none

/-! ## The encoder -/

/-- The number of a CP0 register (R37). -/
def cp0Number : Cp0Reg → Reg
  | .badVAddr => 8 | .count => 9 | .compare => 11 | .status => 12 | .cause => 13 | .epc => 14 | .prId => 15
  | .config => 16 | .ebase => 25 | .tagLo => 28 | .tagHi => 29 | .errorEPC => 30 | .reserved n => n

/-- The code of a cache operation (R386). -/
def cacheCode : CacheOp → BitVec 5
  | .indexInvalidateI => 4 | .indexUnlockI => 6 | .hitInvalidateI => 8 | .fillI => 10 | .fillLockI => 11
  | .indexWritebackInvalidateD => 20 | .indexUnlockD => 22 | .createDirtyD => 24 | .hitInvalidateD => 25
  | .hitWritebackD => 26 | .hitWritebackInvalidateD => 27 | .createDirtyLockD => 28 | .fillD => 30 | .fillLockD => 31
  | .blank f => f

/-- I-type (R142), REGIMM (R145), coprocessor branch (R146) and CACHE (R147) layouts. -/
def encI (op : BitVec 6) (rs rt : BitVec 5) (imm : Imm16) : Word := op ++ rs ++ rt ++ imm
/-- R-type layout (R144), also that of the coprocessor transfers (R146). -/
def encR (op : BitVec 6) (rs rt rd sa : BitVec 5) (func : BitVec 6) : Word := op ++ rs ++ rt ++ rd ++ sa ++ func
/-- J-type layout (R143). -/
def encJ (op : BitVec 6) (target : BitVec 26) : Word := op ++ target
/-- Code layout of SYSCALL and BREAK (R145). -/
def encCode (code : BitVec 20) (func : BitVec 6) : Word := 0#6 ++ code ++ func
/-- Coprocessor operation layout (R146, GK10). -/
def encCop (op : BitVec 6) (cofun : BitVec 25) : Word := op ++ 1#1 ++ cofun

/-- The word of an instruction (R142 to R147 and the Encoding line of its own rule). -/
def encode : Instr → Word
  | .lb base rt off => encI 0x20 base rt off
  | .lbu base rt off => encI 0x24 base rt off
  | .lh base rt off => encI 0x21 base rt off
  | .lhu base rt off => encI 0x25 base rt off
  | .lwl base rt off => encI 0x22 base rt off
  | .lwr base rt off => encI 0x26 base rt off
  | .ll base rt off => encI 0x30 base rt off
  | .lw base rt off => encI 0x23 base rt off
  | .sb base rt off => encI 0x28 base rt off
  | .sh base rt off => encI 0x29 base rt off
  | .swl base rt off => encI 0x2A base rt off
  | .swr base rt off => encI 0x2E base rt off
  | .sc base rt off => encI 0x38 base rt off
  | .sw base rt off => encI 0x2B base rt off
  | .addi rs rt imm => encI 0x08 rs rt imm
  | .addiu rs rt imm => encI 0x09 rs rt imm
  | .slti rs rt imm => encI 0x0A rs rt imm
  | .sltiu rs rt imm => encI 0x0B rs rt imm
  | .andi rs rt imm => encI 0x0C rs rt imm
  | .ori rs rt imm => encI 0x0D rs rt imm
  | .xori rs rt imm => encI 0x0E rs rt imm
  | .lui rt imm => encI 0x0F 0 rt imm
  | .add rs rt rd => encR 0x00 rs rt rd 0 0x20
  | .addu rs rt rd => encR 0x00 rs rt rd 0 0x21
  | .sub rs rt rd => encR 0x00 rs rt rd 0 0x22
  | .subu rs rt rd => encR 0x00 rs rt rd 0 0x23
  | .slt rs rt rd => encR 0x00 rs rt rd 0 0x2A
  | .sltu rs rt rd => encR 0x00 rs rt rd 0 0x2B
  | .and rs rt rd => encR 0x00 rs rt rd 0 0x24
  | .or rs rt rd => encR 0x00 rs rt rd 0 0x25
  | .xor rs rt rd => encR 0x00 rs rt rd 0 0x26
  | .nor rs rt rd => encR 0x00 rs rt rd 0 0x27
  | .sll rt rd sa => encR 0x00 0 rt rd sa 0
  | .srl rt rd sa => encR 0x00 0 rt rd sa 0x02
  | .sra rt rd sa => encR 0x00 0 rt rd sa 0x03
  | .sllv rs rt rd => encR 0x00 rs rt rd 0 0x04
  | .srlv rs rt rd => encR 0x00 rs rt rd 0 0x06
  | .srav rs rt rd => encR 0x00 rs rt rd 0 0x07
  | .mult rs rt => encR 0x00 rs rt 0 0 0x18
  | .multu rs rt => encR 0x00 rs rt 0 0 0x19
  | .div rs rt => encR 0x00 rs rt 0 0 0x1A
  | .divu rs rt => encR 0x00 rs rt 0 0 0x1B
  | .mfhi rd => encR 0x00 0 0 rd 0 0x10
  | .mflo rd => encR 0x00 0 0 rd 0 0x12
  | .mthi rs => encR 0x00 rs 0 0 0 0x11
  | .mtlo rs => encR 0x00 rs 0 0 0 0x13
  | .madd rs rt => encR 0x00 rs rt 0 0 0x1C
  | .maddu rs rt => encR 0x00 rs rt 0 0 0x1D
  | .msub rs rt => encR 0x00 rs rt 0 0 0x2E
  | .msubu rs rt => encR 0x00 rs rt 0 0 0x2F
  | .max rs rt rd => encR 0x00 rs rt rd 0 0x2C
  | .min rs rt rd => encR 0x00 rs rt rd 0 0x2D
  | .movn rs rt rd => encR 0x00 rs rt rd 0 0x0B
  | .movz rs rt rd => encR 0x00 rs rt rd 0 0x0A
  | .ext rs rt sizeM1 pos => encR 0x1F rs rt sizeM1 pos 0
  | .ins rs rt msb pos => encR 0x1F rs rt msb pos 0x04
  | .seb rt rd => encR 0x1F 0 rt rd 0x10 0x20
  | .seh rt rd => encR 0x1F 0 rt rd 0x18 0x20
  | .rotr rt rd sa => encR 0x00 0x01 rt rd sa 0x02
  | .rotrv rs rt rd => encR 0x00 rs rt rd 0x01 0x06
  | .wsbh rt rd => encR 0x1F 0 rt rd 0x02 0x20
  | .wsbw rt rd => encR 0x1F 0 rt rd 0x03 0x20
  | .bitrev rt rd => encR 0x1F 0 rt rd 0x14 0x20
  | .clz rs rd => encR 0x00 rs 0 rd 0 0x16
  | .clo rs rd => encR 0x00 rs 0 rd 0 0x17
  | .j target => encJ 0x02 target
  | .jal target => encJ 0x03 target
  | .jr rs => encR 0x00 rs 0 0 0 0x08
  | .jalr rs rd => encR 0x00 rs 0 rd 0 0x09
  | .beq rs rt off => encI 0x04 rs rt off
  | .bne rs rt off => encI 0x05 rs rt off
  | .blez rs off => encI 0x06 rs 0 off
  | .bgtz rs off => encI 0x07 rs 0 off
  | .bltz rs off => encI 0x01 rs 0 off
  | .bgez rs off => encI 0x01 rs 0x01 off
  | .bltzal rs off => encI 0x01 rs 0x10 off
  | .bgezal rs off => encI 0x01 rs 0x11 off
  | .bltzl rs off => encI 0x01 rs 0x02 off
  | .bgezl rs off => encI 0x01 rs 0x03 off
  | .bltzall rs off => encI 0x01 rs 0x12 off
  | .bgezall rs off => encI 0x01 rs 0x13 off
  | .beql rs rt off => encI 0x14 rs rt off
  | .bnel rs rt off => encI 0x15 rs rt off
  | .blezl rs off => encI 0x16 rs 0 off
  | .bgtzl rs off => encI 0x17 rs 0 off
  | .syscall code => encCode code 0x0C
  | .brk code => encCode code 0x0D
  | .sync => encR 0x00 0 0 0 0 0x0F
  | .lwc1 base rt off => encI 0x31 base rt off
  | .swc1 base rt off => encI 0x39 base rt off
  | .mtc1 rt rd => encR 0x11 0x04 rt rd 0 0
  | .mfc1 rt rd => encR 0x11 0 rt rd 0 0
  | .ctc1 rt rd => encR 0x11 0x06 rt rd 0 0
  | .cfc1 rt rd => encR 0x11 0x02 rt rd 0 0
  | .cop1 cofun => encCop 0x11 cofun
  | .bc1f off => encI 0x11 0x08 0 off
  | .bc1t off => encI 0x11 0x08 0x01 off
  | .bc1fl off => encI 0x11 0x08 0x02 off
  | .bc1tl off => encI 0x11 0x08 0x03 off
  | .lwc2 base rt off => encI 0x32 base rt off
  | .swc2 base rt off => encI 0x3A base rt off
  | .mtc2 rt rd => encR 0x12 0x04 rt rd 0 0
  | .mfc2 rt rd => encR 0x12 0 rt rd 0 0
  | .ctc2 rt rd => encR 0x12 0x06 rt rd 0 0
  | .cfc2 rt rd => encR 0x12 0x02 rt rd 0 0
  | .cop2 cofun => encCop 0x12 cofun
  | .bc2f off => encI 0x12 0x08 0 off
  | .bc2t off => encI 0x12 0x08 0x01 off
  | .bc2fl off => encI 0x12 0x08 0x02 off
  | .bc2tl off => encI 0x12 0x08 0x03 off
  | .lwc3 base rt off => encI 0x33 base rt off
  | .swc3 base rt off => encI 0x3B base rt off
  | .mtc3 rt rd => encR 0x13 0x04 rt rd 0 0
  | .mfc3 rt rd => encR 0x13 0 rt rd 0 0
  | .ctc3 rt rd => encR 0x13 0x06 rt rd 0 0
  | .cfc3 rt rd => encR 0x13 0x02 rt rd 0 0
  | .cop3 cofun => encCop 0x13 cofun
  | .bc3f off => encI 0x13 0x08 0 off
  | .bc3t off => encI 0x13 0x08 0x01 off
  | .bc3fl off => encI 0x13 0x08 0x02 off
  | .bc3tl off => encI 0x13 0x08 0x03 off
  | .mfc0 rt rd => encR 0x10 0 rt (cp0Number rd) 0 0
  | .mtc0 rt rd => encR 0x10 0x04 rt (cp0Number rd) 0 0
  | .eret => 0x42000018
  | .cache base op off => encI 0x2F base (cacheCode op) off

end Sys2Proof
end

