-- ==== Sys2Proof/Machine/AddressMap.lean ====
section
/-! DEFINITION. The virtual address map, protection and translation (20_memory.md section 4). -/

namespace Sys2Proof.Machine

/-- The segments of R95. -/
inductive Segment where
  | kuseg0 | kuseg1 | kseg0 | kseg1 | ksseg | kseg3
  deriving DecidableEq, Repr

/-- The segment of a virtual address (R95; that kuseg0 is the lower half is log entry 4). -/
def segment (va : Word) : Segment :=
  if va.getLsbD 31 then
    if va.getLsbD 30 then (if va.getLsbD 29 then .kseg3 else .ksseg)
    else (if va.getLsbD 29 then .kseg1 else .kseg0)
  else if va.getLsbD 30 then .kuseg1 else .kuseg0

/-- Whether accesses to the segment go through the caches (R95, R97). -/
def Segment.cached : Segment → Bool
  | .kuseg0 | .kseg0 | .ksseg | .kseg3 => true
  | .kuseg1 | .kseg1 => false

/-- Whether a mode may reference the segment (R96). -/
def Segment.allowed (m : Mode) : Segment → Bool
  | .kuseg0 | .kuseg1 => true
  | .kseg0 | .kseg1 | .kseg3 => m == .kernel
  | .ksseg => m == .supervisor || m == .kernel

/-- Whether accesses to the address go through the caches (R97). -/
def cachedAddress (va : Word) : Bool := (segment va).cached

/-- `Allowed(mode, VA)` (R96). -/
def allowedAddress (m : Mode) (va : Word) : Bool := (segment va).allowed m

/-- `Phys(VA)` (R98, log entry 4). -/
def physical (va : Word) : Nat :=
  if va.getLsbD 31 then (va.extractLsb' 0 29).toNat else (va.extractLsb' 0 30).toNat

/-- The cache set of an address, `VA[12:6]` (R110). -/
def setIndex (va : Word) : BitVec 7 := va.extractLsb' 6 7

/-- The tag of an address, `VA[31:13]` (R110). -/
def lineTag (va : Word) : BitVec 19 := va.extractLsb' 13 19

/-- The byte of its line that an address names, `VA[5:0]` (R110). -/
def lineOffset (va : Word) : BitVec 6 := va.extractLsb' 0 6

/-- The virtual address of the line with this tag in this set (R114). -/
def lineAddress (tag : BitVec 19) (index : BitVec 7) : Word := tag ++ index ++ 0#6

/-- The physical address of an address's line, `Phys(VA) & ~63` (R112). -/
def physicalLine (va : Word) : Nat := physical (lineAddress (lineTag va) (setIndex va))

/-- The word that holds an address, `VA & ~3` (R87). -/
def wordAddress (va : Word) : Word := va.extractLsb' 2 30 ++ 0#2

/-- `VA[1:0]`. -/
def byteInWord (va : Word) : BitVec 2 := va.extractLsb' 0 2

end Sys2Proof.Machine
end

