-- ==== Sys2Proof/Machine/Memory.lean ====
section
/-! DEFINITION. Physical memory: 2^30 bytes (R98), held as the bytes that differ from 0, and what the bus makes of it by the
map of the parameter `PhysMem` (R6): RAM, ROM, device registers, nothing. A byte of RAM or ROM that nothing has written holds
0 (log entry 10: DESIGN CHOICE, unsafe). -/

namespace Sys2Proof.Machine

/-- What an unlisted address reads as (log entry 10). -/
def unwrittenByte : Byte := 0

/-- The byte at physical address `k`. -/
def Memory.read : Memory → Nat → Byte
  | [], _ => unwrittenByte
  | (a, b) :: m, k => if a = k then b else Memory.read m k

/-- `m` without an entry at `k`. -/
def Memory.erase : Memory → Nat → Memory
  | [], _ => []
  | (a, b) :: m, k => if a = k then Memory.erase m k else (a, b) :: Memory.erase m k

/-- `m` with an entry at `k`, before the first greater address. -/
def Memory.insert : Memory → Nat → Byte → Memory
  | [], k, v => [(k, v)]
  | (a, b) :: m, k, v => if k < a then (k, v) :: (a, b) :: m else (a, b) :: Memory.insert m k v

/-- `m` with the byte `v` at `k`; the entry goes away when `v` is what an unlisted address reads as. There are 2^30 physical
addresses (R98); a `k` beyond them, which no access computes, changes nothing. -/
def Memory.write (m : Memory) (k : Nat) (v : Byte) : Memory :=
  if k < 2 ^ 30 then (if v = unwrittenByte then m.erase k else (m.erase k).insert k v) else m

/-- Addresses strictly rising from `lo`, below 2^30, and no entry that an unlisted address would read as. -/
def Memory.wfFrom : Nat → Memory → Bool
  | _, [] => true
  | lo, (a, b) :: m => decide (lo ≤ a) && decide (a < 2 ^ 30) && decide (b ≠ unwrittenByte) && Memory.wfFrom (a + 1) m

/-- The canonical form of memory. -/
def Memory.wf (m : Memory) : Bool := Memory.wfFrom 0 m

/-- `m` with the bytes `bs` from `k` on. -/
def Memory.writeBytes : Memory → Nat → List Byte → Memory
  | m, _, [] => m
  | m, k, b :: bs => Memory.writeBytes (m.write k b) (k + 1) bs

/-! ## The map of physical addresses (R6, R53, R91, log entry 10) -/

/-- Whether the core reads back what memory holds. -/
def RegionKind.holds : RegionKind → Bool
  | .ram | .rom => true
  | .device | .nothing => false

/-- Whether a write by the core changes what memory holds. -/
def RegionKind.writable : RegionKind → Bool
  | .ram => true
  | .rom | .device | .nothing => false

/-- Whether an address lies in a region. -/
def Region.contains (r : Region) (a : Nat) : Bool := decide (r.lo ≤ a) && decide (a < r.hi)

/-- Whether the bus signals an error on a read of this kind (`BusError`, R106). -/
def Region.fails (r : Region) : AccessKind → Bool
  | .fetch => r.fetchError
  | .load => r.loadError
  | .store => r.storeError

/-- RAM at every physical address (R98), without bus errors. -/
def plainRam : Region := { lo := 0, hi := 2 ^ 30, kind := .ram, fetchError := false, loadError := false, storeError := false }

/-- The region of an address: the first of the list that contains it, else RAM. -/
def regionOf : List Region → Nat → Region
  | [], _ => plainRam
  | r :: rs, a => if r.contains a then r else regionOf rs a

/-- The region of an address. -/
def Environment.region (e : Environment) (a : Nat) : Region := regionOf e.map a

/-! ## What the bus reads and writes -/

/-- The byte that a read of physical address `a` gives: what memory holds, or the outside's own where no memory is. -/
def Environment.readByte (e : Environment) (m : Memory) (a : Nat) : Byte :=
  if (e.region a).kind.holds then m.read a else Config.outsideByte a e.time

/-- Memory after a write of the core reaches physical address `a`: only RAM takes it. -/
def Environment.writeByte (e : Environment) (m : Memory) (a : Nat) (v : Byte) : Memory :=
  if (e.region a).kind.writable then m.write a v else m

/-- Memory after the bytes `bs` reach consecutive physical addresses. -/
def Environment.writeBytes (e : Environment) : Memory → Nat → List Byte → Memory
  | m, _, [] => m
  | m, a, b :: bs => Environment.writeBytes e (e.writeByte m a b) (a + 1) bs

/-- The 64 bytes that the bus delivers from `a` on (R112, R120). -/
def Environment.readLine (e : Environment) (m : Memory) (a : Nat) : Line :=
  Vector.ofFn fun i => e.readByte m (a + i.val)

/-- Memory after a line reaches it. -/
def Environment.writeLine (e : Environment) (m : Memory) (a : Nat) (d : Line) : Memory := e.writeBytes m a d.toList

/-- Memory with free bytes at the listed addresses: what the `n`th draw finds there (R58, log entry 18). -/
def Environment.scramble (e : Environment) (n : Nat) : Memory → List Nat → Memory
  | m, [] => m
  | m, a :: as => Environment.scramble e n (e.writeByte m a (Config.freeByte n a)) as

/-- The byte that a bus read of physical address `a` gives now. -/
def State.physByte (s : State) (a : Nat) : Byte := s.env.readByte s.mem a

end Sys2Proof.Machine
end

