-- ==== Sys2Proof/Machine/Cache.lean ====
section
/-! DEFINITION. Cache sets, the two caches and the two write buffers (20_memory.md section 6, 10_state.md R54 to R56). -/

namespace Sys2Proof.Machine

/-! ## One set (R110, R111, R385) -/

/-- A way of a set. -/
def CacheSet.way {δ : Type} (c : CacheSet δ) : WaySel → Way δ
  | .a => c.a
  | .b => c.b

/-- `c` with one way replaced. -/
def CacheSet.setWay {δ : Type} (c : CacheSet δ) (w : WaySel) (x : Way δ) : CacheSet δ :=
  { c with
    a := match w with | .a => x | .b => c.a
    b := match w with | .a => c.b | .b => x }

/-- The other way. -/
def WaySel.other : WaySel → WaySel
  | .a => .b
  | .b => .a

/-- The way that hits for a tag (R110); WayA if both do, which only a reset can leave behind (log entry 33). -/
def CacheSet.find {δ : Type} (c : CacheSet δ) (tag : BitVec 19) : Option WaySel :=
  if c.a.valid && c.a.tag == tag then some .a
  else if c.b.valid && c.b.tag == tag then some .b
  else none

/-- `Old(S)`: the way the LRU bit points to (R385). -/
def CacheSet.old {δ : Type} (c : CacheSet δ) : WaySel := if c.lru then .b else .a

/-- Whether a way is locked (R385). -/
def CacheSet.locked {δ : Type} (c : CacheSet δ) (w : WaySel) : Bool := c.lock && c.old != w

/-- The LRU bit after an access to, or a fill of, a way: it points to the other way unless Lock = 1 (R111). -/
def CacheSet.touch {δ : Type} (c : CacheSet δ) (w : WaySel) : CacheSet δ :=
  { c with lru := if c.lock then c.lru else w == .a }

/-- The way that a miss fills (R111): the invalid one if exactly one is, else the one the LRU bit points to; with both
invalid `fillWayB` says which, the environment's choice (log entry 16) but for `CacheSet.lockVictim`. -/
def CacheSet.victim {δ : Type} (c : CacheSet δ) (fillWayB : Bool) : WaySel :=
  match c.a.valid, c.b.valid with
  | true, true => c.old
  | true, false => .b
  | false, true => .a
  | false, false => if fillWayB then .b else .a

/-- The way that a Fill with Lock fills on a miss (R393, R401): that of R111, and with both invalid `Old(S)` if Lock is 1
already, which R393 names there (DEDUCED for the data cache, since R401 says that the text of R393 applies to it: log entry 36).
DESIGN CHOICE (log entry 36) where Lock is 1 already and exactly one way is invalid: R393 says
there both "the victim is `Old(S)`" and "rule R391's steps", whose victim is the invalid way, and the model takes that one. -/
def CacheSet.lockVictim {δ : Type} (c : CacheSet δ) (fillWayB : Bool) : WaySel :=
  c.victim (if c.lock then c.lru else fillWayB)

/-- The way that an Index Invalidate selects (R389, R397): the older of two valid ways, or the only valid one. -/
def CacheSet.indexed {δ : Type} (c : CacheSet δ) : Option WaySel :=
  match c.a.valid, c.b.valid with
  | true, true => some c.old
  | true, false => some .a
  | false, true => some .b
  | false, false => none

/-- The way invalid. -/
def CacheSet.invalidate {δ : Type} (c : CacheSet δ) (w : WaySel) : CacheSet δ :=
  c.setWay w { c.way w with valid := false }

/-- The lock cancelled if the way is the locked one (R392, R395, R396). -/
def CacheSet.unlockIfLocked {δ : Type} (c : CacheSet δ) (w : WaySel) : CacheSet δ :=
  { c with lock := if c.locked w then false else c.lock }

/-- The lock cancelled if only one way is valid (R389, R397). -/
def CacheSet.unlockIfSingle {δ : Type} (c : CacheSet δ) : CacheSet δ :=
  { c with lock := if c.a.valid && c.b.valid then c.lock else false }

/-! ## Lines -/

/-- The byte that an address names in its line. -/
def lineByte (d : Line) (va : Word) : Byte := d[(lineOffset va).toNat]'(lineOffset va).isLt

/-- A line with bytes written from an address on. -/
def lineWrite : Line → Word → List Byte → Line
  | d, _, [] => d
  | d, va, b :: bs => lineWrite (d.set (lineOffset va).toNat b (lineOffset va).isLt) (va + 1) bs

/-- `n` consecutive virtual addresses. -/
def addresses : Word → Nat → List Word
  | _, 0 => []
  | va, n + 1 => va :: addresses (va + 1) n

/-! ## The caches in the state -/

/-- The instruction cache set of an address. -/
def State.iset (s : State) (va : Word) : CacheSet Unit := s.icache[(setIndex va).toNat]'(setIndex va).isLt

/-- The data cache set of an address. -/
def State.dset (s : State) (va : Word) : CacheSet Bool := s.dcache[(setIndex va).toNat]'(setIndex va).isLt

/-- `s` with the instruction cache set of an address replaced. -/
def State.setIset (s : State) (va : Word) (c : CacheSet Unit) : State :=
  { s with icache := s.icache.set (setIndex va).toNat c (setIndex va).isLt }

/-- `s` with the data cache set of an address replaced. -/
def State.setDset (s : State) (va : Word) (c : CacheSet Bool) : State :=
  { s with dcache := s.dcache.set (setIndex va).toNat c (setIndex va).isLt }

/-! ## The cache writeback buffer (R56, R114) -/

/-- Memory after the line in the writeback buffer, if any, has been written to it. -/
def State.memAfterWriteback (s : State) : Memory :=
  match s.writeback with
  | none => s.mem
  | some w => s.env.writeLine s.mem (physical w.va) w.data

/-- The writeback buffer emptied to memory. -/
def State.drainWriteback (s : State) : State := { s with mem := s.memAfterWriteback, writeback := none }

/-- A line put into the writeback buffer, which holds one: what it held goes to memory first (log entry 15). -/
def State.pushWriteback (s : State) (va : Word) (d : Line) : State :=
  { s.drainWriteback with writeback := some { va := va, data := d } }

/-- Whether the writeback buffer holds the line of an address. -/
def State.writebackHolds (s : State) (va : Word) : Bool :=
  match s.writeback with
  | none => false
  | some w => w.va == lineAddress (lineTag va) (setIndex va)

/-- The writeback buffer emptied if it holds the line of the address, which is about to be read from memory: a load sees the
earlier stores through the same virtual address (R125, log entry 15). -/
def State.settleLine (s : State) (va : Word) : State :=
  { s with
    mem := if s.writebackHolds va then s.memAfterWriteback else s.mem
    writeback := if s.writebackHolds va then none else s.writeback }

/-! ## The non-cached write buffer (R56, R116) -/

/-- Memory after one buffered store has reached it. -/
def Environment.commitStore (v : Environment) (m : Memory) (e : NcStore) : Memory := v.writeBytes m (physical e.va) e.bytes

/-- Memory after buffered stores have reached it, the first of the list first. -/
def Environment.commitStores (v : Environment) : Memory → List NcStore → Memory
  | m, [] => m
  | m, e :: es => Environment.commitStores v (v.commitStore m e) es

/-- The non-cached write buffer emptied to memory, oldest first (R342). -/
def State.drainStores (s : State) : State := { s with mem := s.env.commitStores s.mem s.stores, stores := [] }

/-- How many of the oldest stores must leave the buffer before another enters: it holds 16 words (R5, R116). -/
def State.overflow (s : State) : Nat := s.stores.length - 15

/-- A store put into the non-cached write buffer; the oldest leaves when the buffer is full. -/
def State.pushStore (s : State) (va : Word) (bs : List Byte) : State :=
  { s with
    mem := s.env.commitStores s.mem (s.stores.take s.overflow)
    stores := s.stores.drop s.overflow ++ [{ va := va, bytes := bs }] }

/-- The byte that a buffered store holds for a virtual address. -/
def NcStore.byteAt (e : NcStore) (va : Word) : Option Byte := e.bytes[(va - e.va).toNat]?

/-- The byte that the newest buffered store to a virtual address holds for it (R116, R125). -/
def bufferedByte : List NcStore → Word → Option Byte
  | [], _ => none
  | e :: es, va =>
    match bufferedByte es va with
    | some b => some b
    | none => e.byteAt va

/-- The byte that a non-cached load delivers for a virtual address: this core's own latest store through the same address,
else physical memory (R116, R125). -/
def State.nonCachedByte (s : State) (va : Word) : Byte :=
  match bufferedByte s.stores va with
  | some b => b
  | none => s.physByte (physical va)

/-- Whether two buffered stores have a virtual address in common. -/
def NcStore.overlaps (e f : NcStore) : Bool :=
  (addresses e.va e.bytes.length).any fun a => (addresses f.va f.bytes.length).contains a

/-- Whether the `k`th buffered store may reach the bus now: no older one has a virtual address in common with it (R125, R126,
log entry 15). -/
def mayLeave (es : List NcStore) (k : Nat) : Bool :=
  match es[k]? with
  | none => false
  | some e => (es.take k).all fun f => !f.overlaps e

/-- The state after an event on the bus between two instructions (R126, R464). -/
def State.busEvent (s : State) : BusEvent → State
  | .writeback => s.drainWriteback
  | .store k =>
    { s with
      mem := if mayLeave s.stores k then s.env.commitStores s.mem (s.stores[k]?).toList else s.mem
      stores := if mayLeave s.stores k then s.stores.eraseIdx k else s.stores }
  | .outside c => { s with mem := s.mem.write c.1 c.2 }

/-! ## The bus (R106) -/

/-- Whether the bus signals an error on a read of `n` bytes from physical address `a`: it does if it would for one of them
(log entry 17). -/
def State.busError (s : State) (k : AccessKind) (a n : Nat) : Bool :=
  (List.range n).any fun i => (s.env.region (a + i)).fails k

/-! ## Filling lines (R112, R120, R391, R401) -/

/-- Whether a fill of a way replaces a valid dirty line (R112). -/
def State.dirtyVictim (s : State) (va : Word) (w : WaySel) : Bool :=
  ((s.dset va).way w).valid && ((s.dset va).way w).dirty

/-- The valid dirty line that a fill of a way replaces goes to the writeback buffer (R112, R114), and what the buffer held to
memory. -/
def State.evict (s : State) (va : Word) (w : WaySel) : State :=
  { s with
    mem := if s.dirtyVictim va w then s.memAfterWriteback else s.mem
    writeback :=
      if s.dirtyVictim va w then
        some { va := lineAddress ((s.dset va).way w).tag (setIndex va), data := ((s.dset va).way w).data }
      else s.writeback }

/-- A data cache way filled with the line of `va` from memory (R112). -/
def State.fillDset (s : State) (va : Word) (w : WaySel) : State :=
  s.setDset va ((s.dset va).setWay w
    { valid := true, tag := lineTag va, data := s.env.readLine s.mem (physicalLine va), dirty := false })

/-- An instruction cache way filled with the line of `va` from memory (R120, R391). -/
def State.fillIset (s : State) (va : Word) (w : WaySel) : State :=
  s.setIset va ((s.iset va).setWay w
    { valid := true, tag := lineTag va, data := s.env.readLine s.mem (physicalLine va), dirty := () })

/-- The LRU bit after an access to, or a fill of, a data cache way (R111). -/
def State.touchD (s : State) (va : Word) (w : WaySel) : State := s.setDset va ((s.dset va).touch w)

/-- The LRU bit after an access to, or a fill of, an instruction cache way (R111). -/
def State.touchI (s : State) (va : Word) (w : WaySel) : State := s.setIset va ((s.iset va).touch w)

/-- The way that a data cache miss fills (R111). -/
def State.victimD (s : State) (va : Word) : WaySel := (s.dset va).victim s.env.fillWayB

/-- The way that an instruction cache miss fills (R111). -/
def State.victimI (s : State) (va : Word) : WaySel := (s.iset va).victim s.env.fillWayB

/-- The way that a Fill with Lock (D) fills on a miss (R393, R401). -/
def State.lockVictimD (s : State) (va : Word) : WaySel := (s.dset va).lockVictim s.env.fillWayB

/-- The way that a Fill with Lock (I) fills on a miss (R393). -/
def State.lockVictimI (s : State) (va : Word) : WaySel := (s.iset va).lockVictim s.env.fillWayB

/-- The data cache after a miss has filled way `w` with the line of `va` (R112); on a bus error nothing has changed (R106,
R402). -/
def dcacheFill (k : AccessKind) (w : WaySel) (va : Word) (s : State) : Access WaySel :=
  if s.busError k (physicalLine va) 64 then .raise .dbe
  else .ok w ((((s.settleLine va).evict va w).fillDset va w).touchD va w)

/-- The instruction cache after a miss has filled way `w` with the line of `va` (R120, R391); a bus error raises `e`. -/
def icacheFill (k : AccessKind) (e : GeneralException) (w : WaySel) (va : Word) (s : State) : Access WaySel :=
  if s.busError k (physicalLine va) 64 then .raise e
  else .ok w ((s.fillIset va w).touchI va w)

/-- The way of the data cache that holds the line of `va`, after a fill if it was not there, with the LRU bit updated (R112). -/
def dcacheAccess (k : AccessKind) (va : Word) (s : State) : Access WaySel :=
  match (s.dset va).find (lineTag va) with
  | some w => .ok w (s.touchD va w)
  | none => dcacheFill k (s.victimD va) va s

/-- The way of the instruction cache that holds the line of `va`, after a fill if it was not there, with the LRU bit updated
(R120). -/
def icacheAccess (va : Word) (s : State) : Access WaySel :=
  match (s.iset va).find (lineTag va) with
  | some w => .ok w (s.touchI va w)
  | none => icacheFill .fetch .ibe (s.victimI va) va s

end Sys2Proof.Machine
end

