-- ==== Sys2Proof/Machine/Access.lean ====
section
/-! DEFINITION. The access primitives MemRead, MemWrite and Fetch (20_memory.md section 5). -/

namespace Sys2Proof.Machine

/-! ## Sequencing -/

/-- `k` after an access that succeeded. -/
def Access.bind {α β : Type} (a : Access α) (k : α → State → Access β) : Access β :=
  match a with
  | .ok v s => k v s
  | .raise e => .raise e
  | .refuse r => .refuse r

/-- The outcome of an instruction that makes one access: its effect `k` where the access succeeds; an exception is taken in
the state `s` that the instruction began in, so that none of its writes happen (R9, R25). -/
def Access.complete {α : Type} (a : Access α) (s : State) (k : α → State → State) : Result :=
  match a with
  | .ok v t => .next (k v t)
  | .raise e => Machine.raise e s
  | .refuse r => .refused r

/-! ## Address checks (R101) -/

/-- The address error of an access kind (R101, R430, R431). -/
def addressError : AccessKind → Word → GeneralException
  | .fetch, va => .adEL va
  | .load, va => .adEL va
  | .store, va => .adES va

/-- Whether an access of `n` bytes is aligned (R86). -/
def aligned (n : Nat) (va : Word) : Bool :=
  match n with
  | 2 => va.extractLsb' 0 1 == 0
  | 4 => va.extractLsb' 0 2 == 0
  | _ => true

/-- The checks of R101 for an access of kind `k`; `n = 1` leaves out the alignment check (R105). -/
def checkAddress (k : AccessKind) (n : Nat) (va : Word) (s : State) : Access Unit :=
  if aligned n va then
    match s.mode with
    | none => .refuse .reservedMode
    | some m => if allowedAddress m va then .ok () s else .raise (addressError k va)
  else .raise (addressError k va)

/-! ## Data bytes (R103, R104, R112, R113, R116) -/

/-- The bytes from `va` on, delivered by the data cache or, in a non-cached segment, by the bus. They lie in one word. DESIGN
CHOICE (log entry 15), because R116 does not say whether a non-cached load waits for buffered stores or is forwarded from them:
the load takes from the non-cached write buffer the bytes that it holds, and asks the bus for all of its bytes even so, so that
it raises DBE where the bus signals an error, also when every byte of it is buffered. DESIGN CHOICE (log entry 17) for the width
of that read too: it asks for the `n` bytes of the load alone, and not for the aligned word of 32 bits that R116's quotation can
be read to name, so that an error at another byte of the word raises nothing. -/
def loadBytes (va : Word) (n : Nat) (s : State) : Access (List Byte) :=
  if cachedAddress va then
    (dcacheAccess .load va s).bind fun w t =>
      .ok ((addresses va n).map (lineByte (((t.dset va).way w).data))) t
  else if s.busError .load (physical va) n then .raise .dbe
  else .ok ((addresses va n).map s.nonCachedByte) s

/-- A way after a store to it (R113). -/
def Way.store (x : Way Bool) (va : Word) (bs : List Byte) : Way Bool :=
  { x with data := lineWrite x.data va bs, dirty := true }

/-- The bytes stored from `va` on, into the data cache or, in a non-cached segment, into the non-cached write buffer. -/
def storeBytes (va : Word) (bs : List Byte) (s : State) : Access Unit :=
  if cachedAddress va then
    (dcacheAccess .store va s).bind fun w t =>
      .ok () (t.setDset va ((t.dset va).setWay w (((t.dset va).way w).store va bs)))
  else .ok () (s.pushStore va bs)

/-! ## Values (R82, R83) -/

/-- The value of bytes in address order. -/
def assemble (bigEndian : Bool) (bs : List Byte) : Word := leWord (if bigEndian then bs.reverse else bs)

/-- The `n` low bytes of a value in address order. -/
def layOut (bigEndian : Bool) (n : Nat) (v : Word) : List Byte :=
  if bigEndian then (leBytes n v).reverse else leBytes n v

/-- `MemRead(vaddr, n)` (R103). -/
def memRead (va : Word) (n : Nat) (s : State) : Access Word :=
  (checkAddress .load n va s).bind fun _ t =>
    (loadBytes va n t).bind fun bs u => .ok (assemble s.bigEndian bs) u

/-- `MemWrite(vaddr, n, v)` (R104). -/
def memWrite (va : Word) (n : Nat) (v : Word) (s : State) : Access Unit :=
  (checkAddress .store n va s).bind fun _ t => storeBytes va (layOut s.bigEndian n v) t

/-- The access of LWL and LWR: `n` bytes from `start`, the segment of the instruction's own address `va` being checked and no
alignment (R105). -/
def memReadPart (va start : Word) (n : Nat) (s : State) : Access Word :=
  (checkAddress .load 1 va s).bind fun _ t =>
    (loadBytes start n t).bind fun bs u => .ok (assemble s.bigEndian bs) u

/-- The access of SWL and SWR (R105). -/
def memWritePart (va start : Word) (n : Nat) (v : Word) (s : State) : Access Unit :=
  (checkAddress .store 1 va s).bind fun _ t => storeBytes start (layOut s.bigEndian n v) t

/-! ## Instruction fetch (R84, R109, R120) -/

/-- The bytes of the instruction at `va`. Fetch sees neither the data cache nor the write buffers (R120). -/
def fetchBytes (va : Word) (s : State) : Access (List Byte) :=
  if cachedAddress va then
    (icacheAccess va s).bind fun w t =>
      .ok ((addresses va 4).map (lineByte (((t.iset va).way w).data))) t
  else if s.busError .fetch (physical va) 4 then .raise .ibe
  else .ok ((addresses va 4).map fun a => s.physByte (physical a)) s

/-- Whether the bytes of an instruction are taken in reverse order: never outside user mode with RE = 1, and there as
`Config.fetchReversed` says (R83, R84, log entry 6). -/
def State.fetchReversed (s : State) : Bool := s.bigEndian && Config.fetchReversed

/-- `Fetch(pc)` (R109). -/
def fetch (s : State) : Access Word :=
  (checkAddress .fetch 4 s.pc s).bind fun _ t =>
    (fetchBytes s.pc t).bind fun bs u => .ok (assemble s.fetchReversed bs) u

/-! ## What a load or store meets -/

/-- Memory as a data cache fill of the line of `va` reads it (R112): after the writeback buffer has been emptied, if it holds
that line or a dirty victim needs it. -/
def State.refillMemory (s : State) (va : Word) : Memory := ((s.settleLine va).evict va (s.victimD va)).mem

/-- The byte that a load through `va` delivers now, when no bus error stands in the way: from the data cache where the line is
there, else from memory; in a non-cached segment from the non-cached write buffer, else from memory. -/
def State.byteAt (s : State) (va : Word) : Byte :=
  if cachedAddress va then
    match (s.dset va).find (lineTag va) with
    | some w => lineByte ((s.dset va).way w).data va
    | none => s.env.readByte (s.refillMemory va) (physical va)
  else s.nonCachedByte va

/-- Whether the data cache holds the line of an address (R110). -/
def State.dataHit (s : State) (va : Word) : Bool := ((s.dset va).find (lineTag va)).isSome

/-- Whether a load of `n` bytes meets a bus error (R106): in a non-cached segment, at one of its own bytes (log entry 17). -/
def State.loadFails (s : State) (va : Word) (n : Nat) : Bool :=
  if cachedAddress va then !s.dataHit va && s.busError .load (physicalLine va) 64
  else s.busError .load (physical va) n

/-- Whether a store meets a bus error: only in the line fill of a cached store that misses (R104, R107). -/
def State.storeFails (s : State) (va : Word) : Bool :=
  cachedAddress va && !s.dataHit va && s.busError .store (physicalLine va) 64

end Sys2Proof.Machine
end

