-- ==== Sys2Proof/Machine/CacheOps.lean ====
section
/-! DEFINITION. The CACHE instruction (47_cp0_cache.md section 4). -/

namespace Sys2Proof.Machine

/-! ## Effects on a set -/

/-- Index Invalidate (R389): the older of two valid ways, or the only valid one and then the lock too. -/
def CacheSet.indexInvalidate {δ : Type} (c : CacheSet δ) : CacheSet δ :=
  match c.indexed with
  | none => c
  | some w => c.unlockIfSingle.invalidate w

/-- Index Unlock (R390, R398). -/
def CacheSet.unlock {δ : Type} (c : CacheSet δ) : CacheSet δ := { c with lock := false }

/-- Hit Invalidate (R392, R396). -/
def CacheSet.hitInvalidate {δ : Type} (c : CacheSet δ) (tag : BitVec 19) : CacheSet δ :=
  match c.find tag with
  | none => c
  | some w => (c.unlockIfLocked w).invalidate w

/-- Dirty cleared in one way, after its writeback (R385). -/
def CacheSet.clean (c : CacheSet Bool) (w : WaySel) : CacheSet Bool := c.setWay w { c.way w with dirty := false }

/-- Lock set (R393, R400, R401). -/
def CacheSet.lockOn {δ : Type} (c : CacheSet δ) : CacheSet δ := { c with lock := true }

/-- Lock open between its old value and 1 (R393, D48). -/
def CacheSet.lockOpen {δ : Type} (c : CacheSet δ) (free : Bool) : CacheSet δ := { c with lock := c.lock || free }

/-! ## Effects on the state -/

/-- `Writeback(S, W)` if the way is dirty (R385): its line goes to the writeback buffer and its Dirty bit is cleared. -/
def State.writebackWay (s : State) (va : Word) (w : WaySel) : State :=
  ({ s with
    mem := if ((s.dset va).way w).dirty then s.memAfterWriteback else s.mem
    writeback :=
      if ((s.dset va).way w).dirty then
        some { va := lineAddress ((s.dset va).way w).tag (setIndex va), data := ((s.dset va).way w).data }
      else s.writeback }).setDset va ((s.dset va).clean w)

/-- Index Writeback Invalidate (D) (R397). -/
def State.indexWritebackInvalidate (s : State) (va : Word) : State :=
  match (s.dset va).indexed with
  | none => s
  | some w =>
    (s.writebackWay va w).setDset va ((((s.writebackWay va w).dset va).unlockIfSingle).invalidate w)

/-- Hit Writeback (D) (R394). -/
def State.hitWriteback (s : State) (va : Word) : State :=
  match (s.dset va).find (lineTag va) with
  | none => s
  | some w => s.writebackWay va w

/-- Hit Writeback Invalidate (D) (R395). -/
def State.hitWritebackInvalidate (s : State) (va : Word) : State :=
  match (s.dset va).find (lineTag va) with
  | none => s
  | some w =>
    (s.writebackWay va w).setDset va ((((s.writebackWay va w).dset va).unlockIfLocked w).invalidate w)

/-- 64 free bytes (R399, D48). -/
def State.freeLine (s : State) : Line := Vector.ofFn fun i => Config.freeByte s.freeCount i.val

/-- The way in which Create Dirty Exclusive makes its line: the one that hits, else the victim (R399). -/
def State.createWay (s : State) (va : Word) : WaySel :=
  match (s.dset va).find (lineTag va) with
  | some w => w
  | none => s.victimD va

/-- The state after Create Dirty Exclusive, when no way hits, has sent a valid dirty victim to the writeback buffer (R399). -/
def State.createRoom (s : State) (va : Word) : State :=
  match (s.dset va).find (lineTag va) with
  | some _ => s
  | none => s.evict va (s.victimD va)

/-- Create Dirty Exclusive (D) (R399): a valid dirty line of free bytes, made without a fill. -/
def State.createDirty (s : State) (va : Word) : State :=
  (((s.createRoom va).setDset va
      ((s.dset va).setWay (s.createWay va)
        { valid := true, tag := lineTag va, data := s.freeLine, dirty := true })).touchD va (s.createWay va)).drawn 1

/-- Fill (I) (R391). -/
def fillI (va : Word) (s : State) : Access Unit :=
  match (s.iset va).find (lineTag va) with
  | some _ => .ok () s
  | none => (icacheFill .load .dbe (s.victimI va) va s).bind fun _ t => .ok () t

/-- Fill with Lock (I) (R393). -/
def fillLockI (va : Word) (s : State) : Access Unit :=
  match (s.iset va).find (lineTag va) with
  | some _ => .ok () ((s.setIset va ((s.iset va).lockOpen s.freeBit)).drawn 1)
  | none => (icacheFill .load .dbe (s.lockVictimI va) va s).bind fun _ t => .ok () (t.setIset va (t.iset va).lockOn)

/-- Fill (D) (R401). -/
def fillD (va : Word) (s : State) : Access Unit :=
  match (s.dset va).find (lineTag va) with
  | some _ => .ok () s
  | none => (dcacheFill .load (s.victimD va) va s).bind fun _ t => .ok () t

/-- Fill with Lock (D) (R401). -/
def fillLockD (va : Word) (s : State) : Access Unit :=
  match (s.dset va).find (lineTag va) with
  | some _ => .ok () ((s.setDset va ((s.dset va).lockOpen s.freeBit)).drawn 1)
  | none => (dcacheFill .load (s.lockVictimD va) va s).bind fun _ t => .ok () (t.setDset va (t.dset va).lockOn)

/-- An operation that is refused on a non-cached address (R388). -/
def onCached (va : Word) (a : Access Unit) : Access Unit :=
  if cachedAddress va then a else .refuse .cacheOpUncached

/-- A hit operation: on a non-cached address it finds no line and does nothing (R388). -/
def hitOnCached (va : Word) (s t : State) : Access Unit := .ok () (if cachedAddress va then t else s)

/-- The operation of a code on the line of an address (R386 to R401). -/
def cacheOperation (op : CacheOp) (va : Word) (s : State) : Access Unit :=
  match op with
  | .indexInvalidateI => .ok () (s.setIset va (s.iset va).indexInvalidate)
  | .indexUnlockI => .ok () (s.setIset va (s.iset va).unlock)
  | .hitInvalidateI => hitOnCached va s (s.setIset va ((s.iset va).hitInvalidate (lineTag va)))
  | .fillI => onCached va (fillI va s)
  | .fillLockI => onCached va (fillLockI va s)
  | .indexWritebackInvalidateD => .ok () (s.indexWritebackInvalidate va)
  | .indexUnlockD => .ok () (s.setDset va (s.dset va).unlock)
  | .createDirtyD => onCached va (.ok () (s.createDirty va))
  | .hitInvalidateD => hitOnCached va s (s.setDset va ((s.dset va).hitInvalidate (lineTag va)))
  | .hitWritebackD => hitOnCached va s (s.hitWriteback va)
  | .hitWritebackInvalidateD => hitOnCached va s (s.hitWritebackInvalidate va)
  | .createDirtyLockD =>
    onCached va (.ok () ((s.createDirty va).setDset va ((s.createDirty va).dset va).lockOn))
  | .fillD => onCached va (fillD va s)
  | .fillLockD => onCached va (fillLockD va s)
  | .blank _ => .refuse .blankCacheCode

/-- CACHE (R384): the usable check, the segment check as for a load, then the operation. -/
def execCache (base : Reg) (op : CacheOp) (off : Imm16) (s : State) : Result :=
  requireCp0 s
    (((checkAddress .load 1 (s.effectiveAddress base off) s).bind fun _ t =>
      cacheOperation op (s.effectiveAddress base off) t).complete s fun _ t => t.retire .other)

end Sys2Proof.Machine
end

