-- ==== Sys2Proof/Machine/Coprocessor.lean ====
section
/-! DEFINITION. The instructions by which the CPU reaches coprocessors 1, 2 and 3 (46_coprocessor.md). Every one begins with
the usable check of R350; coprocessor 3 is refused when usable (R362). -/

namespace Sys2Proof.Machine

/-- LWCz (R353). -/
def loadToCop (z : Cop) (base rt : Reg) (off : Imm16) (s : State) : Result :=
  requireCop z s
    ((memRead (s.effectiveAddress base off) 4 s).complete s fun v t => (t.setCpr z rt v).retire .other)

/-- SWCz (R354). -/
def storeFromCop (z : Cop) (base rt : Reg) (off : Imm16) (s : State) : Result :=
  requireCop z s
    ((memWrite (s.effectiveAddress base off) 4 (s.cpr z rt) s).complete s fun _ t => t.retire .other)

/-- MTCz (R355). -/
def moveToCop (z : Cop) (rt rd : Reg) (s : State) : Result :=
  requireCop z s (.next ((s.setCpr z rd (s.reg rt)).retire .other))

/-- MFCz (R356). -/
def moveFromCop (z : Cop) (rt rd : Reg) (s : State) : Result := requireCop z s (writeBack rt (s.cpr z rd) s)

/-- The kind of an instruction that may write CpCond (R366): the gap concerns the FPU only (R510). -/
def condWriter : Cop → Retired
  | .cp1 => .fpuCond
  | .cp2 | .cp3 => .other

/-- The coprocessor after CTCz: its general registers stay, its control state is the coprocessor's own (R352, R357, D40). -/
def copAfterControl (z : Cop) (n : Reg) (v : Word) (c : Coprocessor) (free : Nat) : Coprocessor :=
  { c with ctl := { Config.copWriteControl z n v c.ctl free with oldCond := c.ctl.cond } }

/-- The coprocessor after an operation, which is its own (R359). -/
def copAfterOperation (z : Cop) (cofun : BitVec 25) (c : Coprocessor) (free : Nat) : Coprocessor :=
  { Config.copOperate z cofun c free with
    ctl := { (Config.copOperate z cofun c free).ctl with oldCond := c.ctl.cond } }

/-- CTCz (R357). -/
def moveControlToCop (z : Cop) (rt rd : Reg) (s : State) : Result :=
  requireCop z s
    (.next (((s.setCop z (copAfterControl z rd (s.reg rt) (s.cop z) s.freeCount)).drawn 1).retire (condWriter z)))

/-- CFCz (R358). -/
def moveControlFromCop (z : Cop) (rt rd : Reg) (s : State) : Result :=
  requireCop z s (writeBack rt (Config.copReadControl z rd (s.cop z).ctl s.freeCount) (s.drawn 1))

/-- COPz (R359). -/
def copOperation (z : Cop) (cofun : BitVec 25) (s : State) : Result :=
  requireCop z s
    (.next (((s.setCop z (copAfterOperation z cofun (s.cop z) s.freeCount)).drawn 1).retire (condWriter z)))

/-- Whether a BCz follows CTC1 or a COP1 operation directly, so that the condition it sees is open (R366). -/
def State.condOpen (s : State) (z : Cop) : Bool := z == .cp1 && s.last1 == .fpuCond

/-- The condition that a BCz sees: CpCond[z], or freely the old or the new one (R366, log entry 22). -/
def State.condSeen (s : State) (z : Cop) : Bool :=
  if s.condOpen z && s.freeBit then (s.cop z).ctl.oldCond else (s.cop z).ctl.cond

/-- BCzF and BCzT (R360, R361). -/
def copBranch (z : Cop) (on : Bool) (off : Imm16) (s : State) : Result :=
  requireCop z s (branch (s.condSeen z == on) off (s.drawn (if s.condOpen z then 1 else 0)))

/-- BCzFL and BCzTL (R363, R364). -/
def copBranchLikely (z : Cop) (on : Bool) (off : Imm16) (s : State) : Result :=
  requireCop z s (branchLikely (s.condSeen z == on) off (s.drawn (if s.condOpen z then 1 else 0)))

/-! ## Coprocessor 1 -/

/-- LWC1 (R353). -/
def execLwc1 (base rt : Reg) (off : Imm16) (s : State) : Result := loadToCop .cp1 base rt off s

/-- SWC1 (R354). -/
def execSwc1 (base rt : Reg) (off : Imm16) (s : State) : Result := storeFromCop .cp1 base rt off s

/-- MTC1 (R355). -/
def execMtc1 (rt rd : Reg) (s : State) : Result := moveToCop .cp1 rt rd s

/-- MFC1 (R356). -/
def execMfc1 (rt rd : Reg) (s : State) : Result := moveFromCop .cp1 rt rd s

/-- CTC1 (R357). -/
def execCtc1 (rt rd : Reg) (s : State) : Result := moveControlToCop .cp1 rt rd s

/-- CFC1 (R358). -/
def execCfc1 (rt rd : Reg) (s : State) : Result := moveControlFromCop .cp1 rt rd s

/-- COP1 (R359). -/
def execCop1 (cofun : BitVec 25) (s : State) : Result := copOperation .cp1 cofun s

/-- BC1F (R360). -/
def execBc1f (off : Imm16) (s : State) : Result := copBranch .cp1 false off s

/-- BC1T (R361). -/
def execBc1t (off : Imm16) (s : State) : Result := copBranch .cp1 true off s

/-- BC1FL (R363). -/
def execBc1fl (off : Imm16) (s : State) : Result := copBranchLikely .cp1 false off s

/-- BC1TL (R364). -/
def execBc1tl (off : Imm16) (s : State) : Result := copBranchLikely .cp1 true off s

/-! ## Coprocessor 2 -/

/-- LWC2 (R353). -/
def execLwc2 (base rt : Reg) (off : Imm16) (s : State) : Result := loadToCop .cp2 base rt off s

/-- SWC2 (R354). -/
def execSwc2 (base rt : Reg) (off : Imm16) (s : State) : Result := storeFromCop .cp2 base rt off s

/-- MTC2 (R355). -/
def execMtc2 (rt rd : Reg) (s : State) : Result := moveToCop .cp2 rt rd s

/-- MFC2 (R356). -/
def execMfc2 (rt rd : Reg) (s : State) : Result := moveFromCop .cp2 rt rd s

/-- CTC2 (R357). -/
def execCtc2 (rt rd : Reg) (s : State) : Result := moveControlToCop .cp2 rt rd s

/-- CFC2 (R358). -/
def execCfc2 (rt rd : Reg) (s : State) : Result := moveControlFromCop .cp2 rt rd s

/-- COP2 (R359). -/
def execCop2 (cofun : BitVec 25) (s : State) : Result := copOperation .cp2 cofun s

/-- BC2F (R360). -/
def execBc2f (off : Imm16) (s : State) : Result := copBranch .cp2 false off s

/-- BC2T (R361). -/
def execBc2t (off : Imm16) (s : State) : Result := copBranch .cp2 true off s

/-- BC2FL (R363). -/
def execBc2fl (off : Imm16) (s : State) : Result := copBranchLikely .cp2 false off s

/-- BC2TL (R364). -/
def execBc2tl (off : Imm16) (s : State) : Result := copBranchLikely .cp2 true off s

/-! ## Coprocessor 3 -/

/-- LWC3 (R353). -/
def execLwc3 (base rt : Reg) (off : Imm16) (s : State) : Result := loadToCop .cp3 base rt off s

/-- SWC3 (R354). -/
def execSwc3 (base rt : Reg) (off : Imm16) (s : State) : Result := storeFromCop .cp3 base rt off s

/-- MTC3 (R355). -/
def execMtc3 (rt rd : Reg) (s : State) : Result := moveToCop .cp3 rt rd s

/-- MFC3 (R356). -/
def execMfc3 (rt rd : Reg) (s : State) : Result := moveFromCop .cp3 rt rd s

/-- CTC3 (R357). -/
def execCtc3 (rt rd : Reg) (s : State) : Result := moveControlToCop .cp3 rt rd s

/-- CFC3 (R358). -/
def execCfc3 (rt rd : Reg) (s : State) : Result := moveControlFromCop .cp3 rt rd s

/-- COP3 (R359). -/
def execCop3 (cofun : BitVec 25) (s : State) : Result := copOperation .cp3 cofun s

/-- BC3F (R360). -/
def execBc3f (off : Imm16) (s : State) : Result := copBranch .cp3 false off s

/-- BC3T (R361). -/
def execBc3t (off : Imm16) (s : State) : Result := copBranch .cp3 true off s

/-- BC3FL (R363). -/
def execBc3fl (off : Imm16) (s : State) : Result := copBranchLikely .cp3 false off s

/-- BC3TL (R364). -/
def execBc3tl (off : Imm16) (s : State) : Result := copBranchLikely .cp3 true off s

end Sys2Proof.Machine
end

