-- ==== Sys2Proof/Machine/Cp0.lean ====
section
/-! DEFINITION. MFC0, MTC0 and ERET (47_cp0_cache.md sections 2 and 3). -/

namespace Sys2Proof.Machine

/-- The value of `CP0read` (R380). -/
def State.cp0Read (s : State) : Cp0Reg → Word
  | .badVAddr => s.cp0.badVAddr
  | .count => s.cp0.count
  | .compare => s.cp0.compare
  | .status => s.cp0.status.toWord
  | .cause => s.causeWord
  | .epc => s.cp0.epc
  | .prId => Config.pridValue
  | .config => Config.configValue
  | .ebase => s.cp0.ebase
  | .errorEPC => s.cp0.errorEPC
  | .tagLo | .tagHi | .reserved _ => s.freeWord

/-- How many free values `CP0read` draws (R38, R50). -/
def cp0Draws : Cp0Reg → Nat
  | .tagLo | .tagHi | .reserved _ => 1
  | .badVAddr | .count | .compare | .status | .cause | .epc | .prId | .config | .ebase | .errorEPC => 0

/-- `CP0write` (R381): writes to read-only registers and fields, and to reserved numbers, change nothing. -/
def Cp0.write (c : Cp0) (rd : Cp0Reg) (v : Word) : Cp0 :=
  match rd with
  | .count => { c with count := v }
  | .compare => { c with compare := v, cause := { c.cause with timer := false } }
  | .status => { c with status := Status.ofWord v }
  | .cause => { c with cause := { c.cause with soft := v.extractLsb' 8 2 } }
  | .epc => { c with epc := v }
  | .ebase => { c with ebase := v }
  | .tagLo => { c with tagLo := v }
  | .tagHi => { c with tagHi := v }
  | .errorEPC => { c with errorEPC := v }
  | .badVAddr | .prId | .config | .reserved _ => c

/-- The kind of an MTC0, for R383 and R453. -/
def mtc0Kind : Cp0Reg → Retired
  | .count | .compare => .mtc0Timer
  | .badVAddr | .status | .cause | .epc | .prId | .config | .ebase | .tagLo | .tagHi | .errorEPC | .reserved _ => .mtc0

/-- Whether an executed instruction was an MTC0. -/
def Retired.isMtc0 : Retired → Bool
  | .mtc0Timer | .mtc0 => true
  | .fpuCond | .other | .entry => false

/-- MFC0 (R380). -/
def execMfc0 (rt : Reg) (rd : Cp0Reg) (s : State) : Result :=
  requireCp0 s (writeBack rt (s.cp0Read rd) (s.drawn (cp0Draws rd)))

/-- MTC0 (R381). -/
def execMtc0 (rt : Reg) (rd : Cp0Reg) (s : State) : Result :=
  requireCp0 s (.next ({ s with cp0 := s.cp0.write rd (s.reg rt) }.retire (mtc0Kind rd)))

/-- ERET (R382, R383). -/
def execEret (s : State) : Result :=
  requireCp0 s
    (if s.inDelaySlot then .refused .eretInDelaySlot
     else if s.last1.isMtc0 || s.last2.isMtc0 then .refused .eretAfterMtc0
     else .next (exceptionReturn s))

end Sys2Proof.Machine
end

