-- ==== Sys2Proof/Machine/Extended.lean ====
section
/-! DEFINITION. The ALLEGREX extended instructions (43_extended.md). -/

namespace Sys2Proof.Machine

/-- MAX (R281). -/
def execMax (rs rt rd : Reg) (s : State) : Result :=
  writeBack rd (if lessSigned (s.reg rt) (s.reg rs) then s.reg rs else s.reg rt) s

/-- MIN (R282). -/
def execMin (rs rt rd : Reg) (s : State) : Result :=
  writeBack rd (if lessSigned (s.reg rs) (s.reg rt) then s.reg rs else s.reg rt) s

/-- MOVN (R283). -/
def execMovn (rs rt rd : Reg) (s : State) : Result :=
  writeBack rd (if s.reg rt = 0 then s.reg rd else s.reg rs) s

/-- MOVZ (R284). -/
def execMovz (rs rt rd : Reg) (s : State) : Result :=
  writeBack rd (if s.reg rt = 0 then s.reg rs else s.reg rd) s

/-- EXT (R285): the `rd` field holds size - 1 and the `sa` field pos; a field that runs past bit 31 gives a free value. -/
def execExt (rs rt : Reg) (sizeM1 pos : BitVec 5) (s : State) : Result :=
  if 32 < pos.toNat + (sizeM1.toNat + 1) then writeBack rt s.freeWord (s.drawn 1)
  else writeBack rt (extractField (s.reg rs) pos.toNat (sizeM1.toNat + 1)) s

/-- INS (R286): the `rd` field holds the number of the field's last bit and the `sa` field pos; a last bit below pos gives a
free value. -/
def execIns (rs rt : Reg) (msb pos : BitVec 5) (s : State) : Result :=
  if msb.toNat < pos.toNat then writeBack rt s.freeWord (s.drawn 1)
  else writeBack rt (insertField (s.reg rt) (s.reg rs) pos.toNat (msb.toNat - pos.toNat + 1)) s

/-- SEB (R287). -/
def execSeb (rt rd : Reg) (s : State) : Result := writeBack rd (signExtendByte (s.reg rt)) s

/-- SEH (R288). -/
def execSeh (rt rd : Reg) (s : State) : Result := writeBack rd (signExtendHalf (s.reg rt)) s

/-- ROTR (R290). -/
def execRotr (rt rd : Reg) (sa : BitVec 5) (s : State) : Result := writeBack rd (rotateRight (s.reg rt) sa) s

/-- ROTRV (R291). -/
def execRotrv (rs rt rd : Reg) (s : State) : Result :=
  writeBack rd (rotateRight (s.reg rt) (shiftAmount (s.reg rs))) s

/-- WSBH (R292). -/
def execWsbh (rt rd : Reg) (s : State) : Result := writeBack rd (swapBytesInHalves (s.reg rt)) s

/-- WSBW (R293). -/
def execWsbw (rt rd : Reg) (s : State) : Result := writeBack rd (swapBytes (s.reg rt)) s

/-- BITREV (R294). -/
def execBitrev (rt rd : Reg) (s : State) : Result := writeBack rd (reverseBits (s.reg rt) 32) s

/-- CLZ (R295). -/
def execClz (rs rd : Reg) (s : State) : Result :=
  writeBack rd (BitVec.ofNat 32 (leadingCount false (s.reg rs) 32)) s

/-- CLO (R296). -/
def execClo (rs rd : Reg) (s : State) : Result :=
  writeBack rd (BitVec.ofNat 32 (leadingCount true (s.reg rs) 32)) s

end Sys2Proof.Machine
end

