-- ==== Sys2Proof/Machine/LoadStore.lean ====
section
/-! DEFINITION. Loads, stores, LL and SC (40_load_store.md). -/

namespace Sys2Proof.Machine

/-- A load of `n` bytes whose value, extended by `f`, goes to `rt` (R200). -/
def load (n : Nat) (f : Word → Word) (base rt : Reg) (off : Imm16) (s : State) : Result :=
  (memRead (s.effectiveAddress base off) n s).complete s fun v t => (t.setReg rt (f v)).retire .other

/-- A store of the `n` low bytes of `rt` (R200). -/
def store (n : Nat) (base rt : Reg) (off : Imm16) (s : State) : Result :=
  (memWrite (s.effectiveAddress base off) n (s.reg rt) s).complete s fun _ t => t.retire .other

/-! ## The parts of a word that LWL, LWR, SWL and SWR move -/

/-- First address and byte count of a part of a word. -/
structure WordPart where
  start : Word
  count : Nat
  deriving DecidableEq, Repr

/-- Bytes 0 to b of the word, b being `va[1:0]`. -/
def partUpTo (va : Word) : WordPart := { start := wordAddress va, count := (byteInWord va).toNat + 1 }

/-- Bytes b to 3 of the word, b being `va[1:0]`. -/
def partFrom (va : Word) : WordPart := { start := va, count := 4 - (byteInWord va).toNat }

/-- The part that LWL and SWL move (R206, R212; the big-endian case is log entry 5). -/
def leftPart (bigEndian : Bool) (va : Word) : WordPart := if bigEndian then partFrom va else partUpTo va

/-- The part that LWR and SWR move (R207, R213; the big-endian case is log entry 5). -/
def rightPart (bigEndian : Bool) (va : Word) : WordPart := if bigEndian then partUpTo va else partFrom va

/-- `v`, of `n` bytes, merged into the high end of `old` (R206). -/
def mergeLeft (n : Nat) (v old : Word) : Word := (v <<< (8 * (4 - n))) ||| (old &&& lowMask (8 * (4 - n)))

/-- `v`, of `n` bytes, merged into the low end of `old` (R207). -/
def mergeRight (n : Nat) (v old : Word) : Word := (old &&& ~~~lowMask (8 * n)) ||| v

/-- The part of a word that LWL and LWR load, merged into `rt`. -/
def loadPart (p : WordPart) (merge : Nat → Word → Word → Word) (va : Word) (rt : Reg) (s : State) : Result :=
  (memReadPart va p.start p.count s).complete s fun v t => (t.setReg rt (merge p.count v (t.reg rt))).retire .other

/-- The part of a word that SWL and SWR store. -/
def storePart (p : WordPart) (va v : Word) (s : State) : Result :=
  (memWritePart va p.start p.count v s).complete s fun _ t => t.retire .other

/-! ## Loads -/

/-- LB (R202). -/
def execLb (base rt : Reg) (off : Imm16) (s : State) : Result := load 1 signExtendByte base rt off s

/-- LBU (R203). -/
def execLbu (base rt : Reg) (off : Imm16) (s : State) : Result := load 1 zeroExtendByte base rt off s

/-- LH (R204). -/
def execLh (base rt : Reg) (off : Imm16) (s : State) : Result := load 2 signExtendHalf base rt off s

/-- LHU (R205). -/
def execLhu (base rt : Reg) (off : Imm16) (s : State) : Result := load 2 zeroExtendHalf base rt off s

/-- LWL (R206). -/
def execLwl (base rt : Reg) (off : Imm16) (s : State) : Result :=
  loadPart (leftPart s.bigEndian (s.effectiveAddress base off)) mergeLeft (s.effectiveAddress base off) rt s

/-- LWR (R207). -/
def execLwr (base rt : Reg) (off : Imm16) (s : State) : Result :=
  loadPart (rightPart s.bigEndian (s.effectiveAddress base off)) mergeRight (s.effectiveAddress base off) rt s

/-- LL (R208). -/
def execLl (base rt : Reg) (off : Imm16) (s : State) : Result :=
  (memRead (s.effectiveAddress base off) 4 s).complete s fun v t =>
    { t.setReg rt v with llBit := true }.retire .other

/-- LW (R209). -/
def execLw (base rt : Reg) (off : Imm16) (s : State) : Result := load 4 id base rt off s

/-! ## Stores -/

/-- SB (R210). -/
def execSb (base rt : Reg) (off : Imm16) (s : State) : Result := store 1 base rt off s

/-- SH (R211). -/
def execSh (base rt : Reg) (off : Imm16) (s : State) : Result := store 2 base rt off s

/-- SWL (R212). -/
def execSwl (base rt : Reg) (off : Imm16) (s : State) : Result :=
  storePart (leftPart s.bigEndian (s.effectiveAddress base off)) (s.effectiveAddress base off)
    (s.reg rt >>> (8 * (4 - (leftPart s.bigEndian (s.effectiveAddress base off)).count))) s

/-- SWR (R213). -/
def execSwr (base rt : Reg) (off : Imm16) (s : State) : Result :=
  storePart (rightPart s.bigEndian (s.effectiveAddress base off)) (s.effectiveAddress base off) (s.reg rt) s

/-- The end of SC: its result in `rt`, and LLbit left free (R214, D14). -/
def State.afterSc (s : State) (rt : Reg) (v : Word) : State :=
  ({ s.setReg rt v with llBit := s.freeBit }.drawn 1).retire .other

/-- SC (R214): the address is checked whatever LLbit holds (log entry 25). -/
def execSc (base rt : Reg) (off : Imm16) (s : State) : Result :=
  if s.llBit then
    (memWrite (s.effectiveAddress base off) 4 (s.reg rt) s).complete s fun _ t => t.afterSc rt 1
  else
    (checkAddress .store 4 (s.effectiveAddress base off) s).complete s fun _ t => t.afterSc rt 0

/-- SW (R215). -/
def execSw (base rt : Reg) (off : Imm16) (s : State) : Result := store 4 base rt off s

end Sys2Proof.Machine
end

