-- ==== Sys2Proof/Machine/MulDiv.lean ====
section
/-! DEFINITION. Multiply, divide, multiply-add and the HI and LO moves (42_muldiv.md). -/

namespace Sys2Proof.Machine

/-- The signed product, exact in 64 bits (R262). -/
def signedProduct (a b : Word) : BitVec 64 := BitVec.ofInt 64 (a.toInt * b.toInt)

/-- The unsigned product, exact in 64 bits (R263). -/
def unsignedProduct (a b : Word) : BitVec 64 := BitVec.ofNat 64 (a.toNat * b.toNat)

/-- An instruction whose only effect is a new `HI ## LO` (R260). -/
def writeAcc (v : BitVec 64) (s : State) : Result := .next ((s.setAcc v).retire .other)

/-- The operands for which R264 leaves HI and LO `any`. -/
def signedDivisionOpen (n d : Word) : Bool := d == 0 || (n == 0x80000000#32 && d == 0xFFFFFFFF#32)

/-- The quotient truncated toward zero (R264, log entry 7). -/
def signedQuotient (n d : Word) : Word := BitVec.ofInt 32 (Int.tdiv n.toInt d.toInt)

/-- The remainder, with the sign of the dividend (R264, log entry 7). -/
def signedRemainder (n d : Word) : Word := BitVec.ofInt 32 (Int.tmod n.toInt d.toInt)

/-- HI and LO both free (R264, R265, log entry 12). -/
def State.openHiLo (s : State) : State := { s with hi := s.freeWord, lo := s.freeWord2 }

/-- MULT (R262). -/
def execMult (rs rt : Reg) (s : State) : Result := writeAcc (signedProduct (s.reg rs) (s.reg rt)) s

/-- MULTU (R263). -/
def execMultu (rs rt : Reg) (s : State) : Result := writeAcc (unsignedProduct (s.reg rs) (s.reg rt)) s

/-- DIV (R264). -/
def execDiv (rs rt : Reg) (s : State) : Result :=
  if signedDivisionOpen (s.reg rs) (s.reg rt) then .next ((s.openHiLo.drawn 2).retire .other)
  else writeAcc (signedRemainder (s.reg rs) (s.reg rt) ++ signedQuotient (s.reg rs) (s.reg rt)) s

/-- DIVU (R265). -/
def execDivu (rs rt : Reg) (s : State) : Result :=
  if s.reg rt = 0 then .next ((s.openHiLo.drawn 2).retire .other)
  else writeAcc (s.reg rs % s.reg rt ++ s.reg rs / s.reg rt) s

/-- MFHI (R266). -/
def execMfhi (rd : Reg) (s : State) : Result := writeBack rd s.hi s

/-- MFLO (R267). -/
def execMflo (rd : Reg) (s : State) : Result := writeBack rd s.lo s

/-- MTHI (R268). -/
def execMthi (rs : Reg) (s : State) : Result := .next ({ s with hi := s.reg rs }.retire .other)

/-- MTLO (R269). -/
def execMtlo (rs : Reg) (s : State) : Result := .next ({ s with lo := s.reg rs }.retire .other)

/-- MADD (R270). -/
def execMadd (rs rt : Reg) (s : State) : Result := writeAcc (s.acc + signedProduct (s.reg rs) (s.reg rt)) s

/-- MADDU (R271). -/
def execMaddu (rs rt : Reg) (s : State) : Result := writeAcc (s.acc + unsignedProduct (s.reg rs) (s.reg rt)) s

/-- MSUB (R272). -/
def execMsub (rs rt : Reg) (s : State) : Result := writeAcc (s.acc - signedProduct (s.reg rs) (s.reg rt)) s

/-- MSUBU (R273). -/
def execMsubu (rs rt : Reg) (s : State) : Result := writeAcc (s.acc - unsignedProduct (s.reg rs) (s.reg rt)) s

end Sys2Proof.Machine
end

