-- ==== Sys2Proof/Machine/Special.lean ====
section
/-! DEFINITION. SYSCALL, BREAK and SYNC (45_special.md). -/

namespace Sys2Proof.Machine

/-- SYSCALL (R340): the code field is not interpreted. -/
def execSyscall (_code : BitVec 20) (s : State) : Result := raise .sys s

/-- BREAK (R341): the code field is not interpreted. -/
def execBrk (_code : BitVec 20) (s : State) : Result := raise .bp s

/-- SYNC (R342): the writeback buffer and then the non-cached write buffer are emptied, the latter oldest first. -/
def execSync (s : State) : Result := .next (s.drainWriteback.drainStores.retire .other)

end Sys2Proof.Machine
end

