-- ==== Sys2Proof/Machine/Dispatch.lean ====
section
/-! DEFINITION. One arm per instruction, each one direct call of its meaning. -/

namespace Sys2Proof.Machine

def exec (i : Instr) (s : State) : Host.Outcome State Fault Refusal :=
  match i with
  | .lb base rt off => Sys2Proof.Machine.execLb base rt off s
  | .lbu base rt off => Sys2Proof.Machine.execLbu base rt off s
  | .lh base rt off => Sys2Proof.Machine.execLh base rt off s
  | .lhu base rt off => Sys2Proof.Machine.execLhu base rt off s
  | .lwl base rt off => Sys2Proof.Machine.execLwl base rt off s
  | .lwr base rt off => Sys2Proof.Machine.execLwr base rt off s
  | .ll base rt off => Sys2Proof.Machine.execLl base rt off s
  | .lw base rt off => Sys2Proof.Machine.execLw base rt off s
  | .sb base rt off => Sys2Proof.Machine.execSb base rt off s
  | .sh base rt off => Sys2Proof.Machine.execSh base rt off s
  | .swl base rt off => Sys2Proof.Machine.execSwl base rt off s
  | .swr base rt off => Sys2Proof.Machine.execSwr base rt off s
  | .sc base rt off => Sys2Proof.Machine.execSc base rt off s
  | .sw base rt off => Sys2Proof.Machine.execSw base rt off s
  | .addi rs rt imm => Sys2Proof.Machine.execAddi rs rt imm s
  | .addiu rs rt imm => Sys2Proof.Machine.execAddiu rs rt imm s
  | .slti rs rt imm => Sys2Proof.Machine.execSlti rs rt imm s
  | .sltiu rs rt imm => Sys2Proof.Machine.execSltiu rs rt imm s
  | .andi rs rt imm => Sys2Proof.Machine.execAndi rs rt imm s
  | .ori rs rt imm => Sys2Proof.Machine.execOri rs rt imm s
  | .xori rs rt imm => Sys2Proof.Machine.execXori rs rt imm s
  | .lui rt imm => Sys2Proof.Machine.execLui rt imm s
  | .add rs rt rd => Sys2Proof.Machine.execAdd rs rt rd s
  | .addu rs rt rd => Sys2Proof.Machine.execAddu rs rt rd s
  | .sub rs rt rd => Sys2Proof.Machine.execSub rs rt rd s
  | .subu rs rt rd => Sys2Proof.Machine.execSubu rs rt rd s
  | .slt rs rt rd => Sys2Proof.Machine.execSlt rs rt rd s
  | .sltu rs rt rd => Sys2Proof.Machine.execSltu rs rt rd s
  | .and rs rt rd => Sys2Proof.Machine.execAnd rs rt rd s
  | .or rs rt rd => Sys2Proof.Machine.execOr rs rt rd s
  | .xor rs rt rd => Sys2Proof.Machine.execXor rs rt rd s
  | .nor rs rt rd => Sys2Proof.Machine.execNor rs rt rd s
  | .sll rt rd sa => Sys2Proof.Machine.execSll rt rd sa s
  | .srl rt rd sa => Sys2Proof.Machine.execSrl rt rd sa s
  | .sra rt rd sa => Sys2Proof.Machine.execSra rt rd sa s
  | .sllv rs rt rd => Sys2Proof.Machine.execSllv rs rt rd s
  | .srlv rs rt rd => Sys2Proof.Machine.execSrlv rs rt rd s
  | .srav rs rt rd => Sys2Proof.Machine.execSrav rs rt rd s
  | .mult rs rt => Sys2Proof.Machine.execMult rs rt s
  | .multu rs rt => Sys2Proof.Machine.execMultu rs rt s
  | .div rs rt => Sys2Proof.Machine.execDiv rs rt s
  | .divu rs rt => Sys2Proof.Machine.execDivu rs rt s
  | .mfhi rd => Sys2Proof.Machine.execMfhi rd s
  | .mflo rd => Sys2Proof.Machine.execMflo rd s
  | .mthi rs => Sys2Proof.Machine.execMthi rs s
  | .mtlo rs => Sys2Proof.Machine.execMtlo rs s
  | .madd rs rt => Sys2Proof.Machine.execMadd rs rt s
  | .maddu rs rt => Sys2Proof.Machine.execMaddu rs rt s
  | .msub rs rt => Sys2Proof.Machine.execMsub rs rt s
  | .msubu rs rt => Sys2Proof.Machine.execMsubu rs rt s
  | .max rs rt rd => Sys2Proof.Machine.execMax rs rt rd s
  | .min rs rt rd => Sys2Proof.Machine.execMin rs rt rd s
  | .movn rs rt rd => Sys2Proof.Machine.execMovn rs rt rd s
  | .movz rs rt rd => Sys2Proof.Machine.execMovz rs rt rd s
  | .ext rs rt sizeM1 pos => Sys2Proof.Machine.execExt rs rt sizeM1 pos s
  | .ins rs rt msb pos => Sys2Proof.Machine.execIns rs rt msb pos s
  | .seb rt rd => Sys2Proof.Machine.execSeb rt rd s
  | .seh rt rd => Sys2Proof.Machine.execSeh rt rd s
  | .rotr rt rd sa => Sys2Proof.Machine.execRotr rt rd sa s
  | .rotrv rs rt rd => Sys2Proof.Machine.execRotrv rs rt rd s
  | .wsbh rt rd => Sys2Proof.Machine.execWsbh rt rd s
  | .wsbw rt rd => Sys2Proof.Machine.execWsbw rt rd s
  | .bitrev rt rd => Sys2Proof.Machine.execBitrev rt rd s
  | .clz rs rd => Sys2Proof.Machine.execClz rs rd s
  | .clo rs rd => Sys2Proof.Machine.execClo rs rd s
  | .j target => Sys2Proof.Machine.execJ target s
  | .jal target => Sys2Proof.Machine.execJal target s
  | .jr rs => Sys2Proof.Machine.execJr rs s
  | .jalr rs rd => Sys2Proof.Machine.execJalr rs rd s
  | .beq rs rt off => Sys2Proof.Machine.execBeq rs rt off s
  | .bne rs rt off => Sys2Proof.Machine.execBne rs rt off s
  | .blez rs off => Sys2Proof.Machine.execBlez rs off s
  | .bgtz rs off => Sys2Proof.Machine.execBgtz rs off s
  | .bltz rs off => Sys2Proof.Machine.execBltz rs off s
  | .bgez rs off => Sys2Proof.Machine.execBgez rs off s
  | .bltzal rs off => Sys2Proof.Machine.execBltzal rs off s
  | .bgezal rs off => Sys2Proof.Machine.execBgezal rs off s
  | .bltzl rs off => Sys2Proof.Machine.execBltzl rs off s
  | .bgezl rs off => Sys2Proof.Machine.execBgezl rs off s
  | .bltzall rs off => Sys2Proof.Machine.execBltzall rs off s
  | .bgezall rs off => Sys2Proof.Machine.execBgezall rs off s
  | .beql rs rt off => Sys2Proof.Machine.execBeql rs rt off s
  | .bnel rs rt off => Sys2Proof.Machine.execBnel rs rt off s
  | .blezl rs off => Sys2Proof.Machine.execBlezl rs off s
  | .bgtzl rs off => Sys2Proof.Machine.execBgtzl rs off s
  | .syscall code => Sys2Proof.Machine.execSyscall code s
  | .brk code => Sys2Proof.Machine.execBrk code s
  | .sync => Sys2Proof.Machine.execSync s
  | .lwc1 base rt off => Sys2Proof.Machine.execLwc1 base rt off s
  | .swc1 base rt off => Sys2Proof.Machine.execSwc1 base rt off s
  | .mtc1 rt rd => Sys2Proof.Machine.execMtc1 rt rd s
  | .mfc1 rt rd => Sys2Proof.Machine.execMfc1 rt rd s
  | .ctc1 rt rd => Sys2Proof.Machine.execCtc1 rt rd s
  | .cfc1 rt rd => Sys2Proof.Machine.execCfc1 rt rd s
  | .cop1 cofun => Sys2Proof.Machine.execCop1 cofun s
  | .bc1f off => Sys2Proof.Machine.execBc1f off s
  | .bc1t off => Sys2Proof.Machine.execBc1t off s
  | .bc1fl off => Sys2Proof.Machine.execBc1fl off s
  | .bc1tl off => Sys2Proof.Machine.execBc1tl off s
  | .lwc2 base rt off => Sys2Proof.Machine.execLwc2 base rt off s
  | .swc2 base rt off => Sys2Proof.Machine.execSwc2 base rt off s
  | .mtc2 rt rd => Sys2Proof.Machine.execMtc2 rt rd s
  | .mfc2 rt rd => Sys2Proof.Machine.execMfc2 rt rd s
  | .ctc2 rt rd => Sys2Proof.Machine.execCtc2 rt rd s
  | .cfc2 rt rd => Sys2Proof.Machine.execCfc2 rt rd s
  | .cop2 cofun => Sys2Proof.Machine.execCop2 cofun s
  | .bc2f off => Sys2Proof.Machine.execBc2f off s
  | .bc2t off => Sys2Proof.Machine.execBc2t off s
  | .bc2fl off => Sys2Proof.Machine.execBc2fl off s
  | .bc2tl off => Sys2Proof.Machine.execBc2tl off s
  | .lwc3 base rt off => Sys2Proof.Machine.execLwc3 base rt off s
  | .swc3 base rt off => Sys2Proof.Machine.execSwc3 base rt off s
  | .mtc3 rt rd => Sys2Proof.Machine.execMtc3 rt rd s
  | .mfc3 rt rd => Sys2Proof.Machine.execMfc3 rt rd s
  | .ctc3 rt rd => Sys2Proof.Machine.execCtc3 rt rd s
  | .cfc3 rt rd => Sys2Proof.Machine.execCfc3 rt rd s
  | .cop3 cofun => Sys2Proof.Machine.execCop3 cofun s
  | .bc3f off => Sys2Proof.Machine.execBc3f off s
  | .bc3t off => Sys2Proof.Machine.execBc3t off s
  | .bc3fl off => Sys2Proof.Machine.execBc3fl off s
  | .bc3tl off => Sys2Proof.Machine.execBc3tl off s
  | .mfc0 rt rd => Sys2Proof.Machine.execMfc0 rt rd s
  | .mtc0 rt rd => Sys2Proof.Machine.execMtc0 rt rd s
  | .eret => Sys2Proof.Machine.execEret s
  | .cache base op off => Sys2Proof.Machine.execCache base op off s

end Sys2Proof.Machine
end

