-- ==== Sys2Proof/Machine/ErrorExceptions.lean ====
section
/-! DEFINITION. The error exceptions: hardware reset, software reset and NMI (R445 to R448, R58). -/

namespace Sys2Proof.Machine

/-- The reset vector (R443). -/
def resetVector : Word := 0xBFC00000#32

/-- The physical bytes of the line in the writeback buffer. -/
def Writeback.physicalBytes (w : Writeback) : List Nat := (List.range 64).map (physical w.va + ·)

/-- The physical bytes of a buffered store. -/
def NcStore.physicalBytes (e : NcStore) : List Nat := (List.range e.bytes.length).map (physical e.va + ·)

/-- The physical bytes that a bus write in flight, from either buffer, is about to change (R58). -/
def State.inFlight (s : State) : List Nat :=
  (match s.writeback with | none => [] | some w => w.physicalBytes) ++ s.stores.flatMap NcStore.physicalBytes

/-- SR after an error exception: 0 after a hardware reset, else 1 (R445). -/
def ErrorException.sr : ErrorException → Bool
  | .hardwareReset => false
  | .softwareReset | .nmi => true

/-- Status after an error exception: ERL, BEV and SR (R445). -/
def ErrorException.status (k : ErrorException) (st : Status) : Status := { st with erl := true, bev := true, sr := k.sr }

/-- NMI (R448): the restart address goes to ErrorEPC and everything else is kept. DESIGN CHOICE (log entry 34) for LLbit, which
R58's table and R448 keep, while R217's table says that no value is guaranteed. -/
def nmiEntry (s : State) : State :=
  { s with
    cp0 := { s.cp0 with status := ErrorException.nmi.status s.cp0.status, errorEPC := s.restartAddress }
    pc := resetVector
    npc := resetVector + 4
    inDelaySlot := false
    last1 := .entry
    last2 := .entry }

/-- Every way of a set invalid. -/
def CacheSet.invalidateAll {δ : Type} (c : CacheSet δ) : CacheSet δ :=
  { c with a := { c.a with valid := false }, b := { c.b with valid := false } }

/-- What a reset may change, as it stands (R58). -/
def State.resettable (s : State) : Unspecified :=
  { regs := s.regs, hi := s.hi, lo := s.lo, llBit := s.llBit, cp0 := s.cp0, icache := s.icache, dcache := s.dcache
    cop1 := s.cop1, cop2 := s.cop2, cop3 := s.cop3 }

/-- What R58 leaves unspecified, as a reset leaves it: free, and it may be anything that was there (log entry 18). -/
def State.afterReset (s : State) : Unspecified := Config.afterReset s.freeCount s.resettable

/-- CP0 after a reset, where `u` is what R58 leaves unspecified: ERL, BEV and SR are written, and a software reset saves the
restart address (R446, R447, D35). EPC, Cause and the other fields of Status are unspecified, as R58 and V-EX-18 say, and so may
be kept, as R445 says of error exceptions (log entry 18). -/
def ErrorException.resetCp0 (k : ErrorException) (s : State) (u : Cp0) : Cp0 :=
  match k with
  | .hardwareReset => { u with status := k.status u.status }
  | .softwareReset | .nmi => { u with status := k.status u.status, errorEPC := s.restartAddress }

/-- Hardware and software reset (R446, R447): what R58 calls unspecified is `State.afterReset`, the buffers are
lost, and the memory bytes they were about to change are free (log entry 18). -/
def resetEntry (k : ErrorException) (s : State) : State :=
  { s with
    regs := s.afterReset.regs.set 0 0
    hi := s.afterReset.hi
    lo := s.afterReset.lo
    llBit := s.afterReset.llBit
    cp0 := k.resetCp0 s s.afterReset.cp0
    icache := s.afterReset.icache.map CacheSet.invalidateAll
    dcache := s.afterReset.dcache
    writeback := none
    stores := []
    mem := s.env.scramble s.freeCount s.mem s.inFlight
    cop1 := s.afterReset.cop1
    cop2 := s.afterReset.cop2
    cop3 := s.afterReset.cop3
    pc := resetVector
    npc := resetVector + 4
    inDelaySlot := false
    last1 := .entry
    last2 := .entry
    freeCount := s.freeCount + 1 }

/-- Entry for an error exception (R445 to R448). -/
def errorEntry (k : ErrorException) (s : State) : State :=
  match k with
  | .hardwareReset => resetEntry .hardwareReset s
  | .softwareReset => resetEntry .softwareReset s
  | .nmi => nmiEntry s

end Sys2Proof.Machine
end

