-- ==== Sys2Proof/Machine/Cycle.lean ====
section
/-! DEFINITION. The instruction cycle (R25): what the outside does, events, fetch, execution, interrupts and the timer. -/

namespace Sys2Proof.Machine

/-! ## The outside (R6, log entry 13) -/

/-- The event that an input signals, by priority (R455). -/
def Input.event (i : Input) : Option ErrorException :=
  if i.xrst then some .hardwareReset
  else if i.xsrst then some .softwareReset
  else if i.xnmi then some .nmi
  else none

/-- The event signalled at the start of this step. -/
def State.event (s : State) : Option ErrorException :=
  match s.env.inputs with
  | [] => none
  | i :: _ => i.event

/-- The levels after an input has been read. -/
def State.applyInput (s : State) (i : Input) (rest : List Input) : State :=
  { s with
    env := { s.env with inputs := rest, intPins := i.intPins, countExtra := i.countExtra, fillWayB := i.fillWayB } }

/-- What happens on the bus, first to last (R126, R464). -/
def State.busEvents : State → List BusEvent → State
  | s, [] => s
  | s, e :: es => State.busEvents (s.busEvent e) es

/-- One step nearer for a request of the FPU that is still to come (R437, log entry 19). -/
def CopControl.tick (c : CopControl) : CopControl :=
  { c with excRequest := match c.excRequest with | some (n + 1) => some n | r => r }

/-- What goes on by itself as a step begins: the FPU comes nearer to a request, and the outside's time goes on. -/
def State.tick (s : State) : State :=
  { s with
    cop1 := { s.cop1 with ctl := s.cop1.ctl.tick }
    env := { s.env with time := s.env.time + 1 } }

/-- The state in which the instruction at `pc` begins: the next input, if any, has been read. -/
def State.begin (s : State) : State :=
  match s.env.inputs with
  | [] => s.tick
  | i :: rest => ((s.applyInput i rest).busEvents i.bus).tick

/-! ## Execution (R25 steps 3 to 6a) -/

/-- `FpuExcRequest` (R437): a request of the FPU stands. -/
def State.fpuRequests (s : State) : Bool := s.cop1.ctl.excRequest == some 0

/-- Whether the FPU exception is due before the instruction at `pc`: a request stands, and EXL = ERL = 0 (R437). -/
def State.fpeDue (s : State) : Bool := s.fpuRequests && !s.cp0.status.exl && !s.cp0.status.erl

/-- The coprocessor class of a word, by its major opcode alone (R350). -/
def copClass (w : Word) : Option Cop :=
  match fOp w with
  | 0x11#6 | 0x31#6 | 0x39#6 => some .cp1
  | 0x12#6 | 0x32#6 | 0x3A#6 => some .cp2
  | 0x13#6 | 0x33#6 | 0x3B#6 => some .cp3
  | _ => none

/-- Whether a word is of class 0, by its major opcode alone (R350). -/
def isCp0Class (w : Word) : Bool := fOp w == 0x10#6 || fOp w == 0x2F#6

/-- A word that no row matches and whose coprocessor, if it has one, is usable (R160): RI where `Config.reservedSet` says so,
else a refusal. -/
def reservedWord (w : Word) (s : State) : Result :=
  if Config.reservedSet w then raise .ri s else .refused .unmatchedWord

/-- A word that no row matches (R160): the usable check of its class comes first (R350). -/
def unmatchedWord (w : Word) (s : State) : Result :=
  if isCp0Class w then requireCp0 s (reservedWord w s)
  else match copClass w with
    | some z => requireCop z s (reservedWord w s)
    | none => reservedWord w s

/-- Steps 4 to 7 for an instruction word (R25). -/
def runWord (w : Word) (s : State) : Result :=
  match decode w with
  | .ok i => exec i s
  | .error _ => unmatchedWord w s

/-- Whether the last thing that happened is an exception entry. -/
def State.entered (s : State) : Bool := s.last1 == .entry

/-- Whether the exception just entered outranks the FPU exception: Ov and Sys do (R456, D37). -/
def State.outranksFpe (s : State) : Bool :=
  s.entered && (s.cp0.cause.excCode == GeneralException.ov.code || s.cp0.cause.excCode == GeneralException.sys.code)

/-- Whether the instruction that led from `s` to `t` made the FPU request an exception at itself (R359: "raised at this or a
later instruction"): a request stands after it, and EXL = ERL = 0 when it began. -/
def State.raisesFpe (t s : State) : Bool := t.fpuRequests && !s.cp0.status.exl && !s.cp0.status.erl

/-- The state in which the FPU exception of the instruction itself is taken: the CPU as before it, the FPU, whose Cause field
says what happened (R367), as after it (log entry 19). -/
def State.withFpuOf (s t : State) : State := { s with cop1 := t.cop1, freeCount := t.freeCount }

/-- The choice among the exceptions of one instruction cycle (R455, R456), where the instruction, run on a copy `t` of the
state `s`, has had its own outcome: an FPU exception that was due outranks all of the instruction's own but Ov and Sys; one
that the instruction itself leads to is taken in its place; and the interrupt is taken only if nothing else was. -/
def arbitrate (irq : Bool) (s t : State) : State :=
  if s.fpeDue then (if t.outranksFpe then t else takeException .fpe s)
  else if t.raisesFpe s then takeException .fpe (s.withFpuOf t)
  else if irq && !t.entered then takeException .int s
  else t

/-- Step 6a (R25, R437). A refused instruction is refused whether or not an interrupt is pending, since whether it would have
raised an exception is not known (log entry 29). -/
def conclude (irq : Bool) (s : State) (r : Result) : Result :=
  match r with
  | .next t => .next (arbitrate irq s t)
  | .fault f => .fault f
  | .refused x => if s.fpeDue then raise .fpe s else .refused x

/-- Steps 2 to 7 of R25 for the instruction at `pc`. -/
def runInstruction (s : State) : Result :=
  match s.mode with
  | none => .refused .reservedMode
  | some _ =>
    match fetch s with
    | .ok w t => conclude s.interruptCondition t (runWord w t)
    | .raise e => raise e s
    | .refuse r => .refused r

/-! ## The timer (R25 step 8, R453) -/

/-- `CountStep` (R453). -/
def State.countStep (s : State) : Nat := s.env.countExtra + 1

/-- Whether Count, advancing by `k`, takes the value of Compare on the way (R453). -/
def timerPasses (count compare : Word) (k : Nat) : Bool :=
  decide ((if count = compare then 4294967296 else (compare - count).toNat) ≤ k)

/-- Count after its advance. -/
def State.nextCount (s : State) : Word := s.cp0.count + BitVec.ofNat 32 s.countStep

/-- Whether IP[7] is left open: this step executed an MTC0 to Count or Compare, and the two are equal, be it right after the
write or after the advance (R453, log entry 14). -/
def State.timerOpen (s : State) : Bool :=
  s.last1 == .mtc0Timer && (s.cp0.count == s.cp0.compare || s.nextCount == s.cp0.compare)

/-- IP[7] after step 8. -/
def State.nextTimer (s : State) : Bool :=
  if s.timerOpen then s.freeBit
  else s.cp0.cause.timer || timerPasses s.cp0.count s.cp0.compare s.countStep

/-- Step 8: Count advances (R40, R453). -/
def State.endStep (s : State) : State :=
  { s with
    cp0 := { s.cp0 with count := s.nextCount, cause := { s.cp0.cause with timer := s.nextTimer } }
    freeCount := if s.timerOpen then s.freeCount + 1 else s.freeCount }

/-! ## The cycle -/

/-- A further effect on the next state, if there is one. -/
def onNext (f : State → State) (r : Result) : Result :=
  match r with
  | .next t => .next (f t)
  | .fault x => .fault x
  | .refused x => .refused x

/-- Steps 1 to 7 (R25). -/
def runStep (s : State) : Result :=
  match s.event with
  | some k => .next (errorEntry k s.begin)
  | none => runInstruction s.begin

/-- One step of the core (R25). -/
def cycle (s : State) : Result := onNext State.endStep (runStep s)

/-! ## Placing an instruction where the next step fetches -/

/-- The instruction cache after the bytes of an instruction at `pc` have been put into the line that a fetch would hit. -/
def State.patchIset (s : State) (bs : List Byte) : CacheSet Unit :=
  match (s.iset s.pc).find (lineTag s.pc) with
  | none => s.iset s.pc
  | some w =>
    (s.iset s.pc).setWay w { (s.iset s.pc).way w with data := lineWrite ((s.iset s.pc).way w).data s.pc bs }

/-- An outside that lets the instruction at `pc` run: nothing more arrives, and every physical address is RAM without bus
errors. -/
def Environment.still (e : Environment) : Environment := { e with inputs := [], map := plainRam :: e.map }

/-- `s` with a word stored where the next step fetches its instruction: in memory and, in a cached segment, also in the
instruction cache line if there is one; and the outside still, for an event, a bus error or an address without memory would
keep the step from running it (log entry 11). -/
def State.placeWord (s : State) (w : Word) : State :=
  { (if cachedAddress s.pc then s.setIset s.pc (s.patchIset (layOut s.fetchReversed 4 w)) else s) with
    mem := s.mem.writeBytes (physical s.pc) (layOut s.fetchReversed 4 w)
    env := s.env.still }

end Sys2Proof.Machine
end

