-- ==== Sys2Proof/Machine/Step.lean ====
section
/-! DEFINITION. The step, composed of the definitions of Machine/Cycle.lean. -/

namespace Sys2Proof.Machine

/-- One step of the machine (R25). -/
def step (s : State) : Host.Outcome State Fault Refusal := cycle s

/-- `s` with the instruction of the `nbits` bits `w` stored where `step` fetches its next instruction; a program is placed from
outside the machine (log entry 11). -/
def State.withFetchWord (s : State) (nbits w : Nat) : State := s.placeWord (BitVec.ofNat 32 (w % 2 ^ nbits))

end Sys2Proof.Machine
end

