-- ==== Sys2Proof/Safety.lean ====
section
/-! DEFINITION. The invariant of the machine, the relations in which frames are stated, and safe runs. -/

namespace Sys2Proof

namespace Machine

/-! ## The invariant -/

/-- A store as the store instructions buffer it: one to four bytes of one word of a non-cached segment (R89, R116). -/
def NcStore.wf (e : NcStore) : Bool :=
  !cachedAddress e.va && decide (0 < e.bytes.length) && decide ((byteInWord e.va).toNat + e.bytes.length ≤ 4)

/-- What holds of every state that a run from reset reaches. -/
structure State.Inv (s : State) : Prop where
  /-- Memory is in its canonical form. -/
  memory : s.mem.wf = true
  /-- The entry of r0 holds 0 (R21). -/
  zero : s.regs[0] = 0
  /-- Outside a delay slot `npc = pc + 4` (R24). -/
  sequential : s.inDelaySlot = false → s.npc = s.pc + 4
  /-- The non-cached write buffer holds at most 16 words (R5). -/
  room : s.stores.length ≤ 16
  /-- Its entries are stores of one word of a non-cached segment. -/
  stores : s.stores.all NcStore.wf = true
  /-- The writeback buffer holds a whole line (R114). -/
  line : ∀ w, s.writeback = some w → lineOffset w.va = 0

/-! ## Frames -/

/-- Memory, both caches and both buffers are the same. -/
def SameMemory (s t : State) : Prop :=
  t.mem = s.mem ∧ t.icache = s.icache ∧ t.dcache = s.dcache ∧ t.writeback = s.writeback ∧ t.stores = s.stores

/-- Every byte that a load could be asked for reads the same. -/
def SameBytes (s t : State) : Prop := ∀ a, t.byteAt a = s.byteAt a

/-- HI, LO, LLbit, the CP0 registers, the coprocessors and what lies outside the core are the same. -/
def SameSpecial (s t : State) : Prop :=
  t.hi = s.hi ∧ t.lo = s.lo ∧ t.llBit = s.llBit ∧ t.cp0 = s.cp0 ∧ t.cop1 = s.cop1 ∧ t.cop2 = s.cop2 ∧ t.cop3 = s.cop3
    ∧ t.env = s.env

/-- Every general register is the same. -/
def SameRegs (s t : State) : Prop := ∀ r, t.reg r = s.reg r

/-- Every general register but `d` is the same. -/
def SameRegsExcept (d : Reg) (s t : State) : Prop := ∀ r, r ≠ d → t.reg r = s.reg r

/-- `t` is `s` but for memory, the data cache and the two write buffers: what a load or store may change beside its
destination. -/
def OnlyDataSide (s t : State) : Prop :=
  t = { s with mem := t.mem, dcache := t.dcache, writeback := t.writeback, stores := t.stores }

/-- RAM lies at a physical address, so that a write there is kept (R6 `PhysMem`). -/
def State.writableAt (s : State) (a : Nat) : Bool := (s.env.region a).kind.writable

/-- The data side holds one value for each byte: the writeback buffer is empty and the non-cached write buffer not full, no
line is in both ways of a set, every clean line equals memory, and RAM lies under every dirty one. What R119 asks of a program
that uses one virtual address for each byte, said of a state. -/
structure State.Settled (s : State) : Prop where
  /-- The writeback buffer is empty. -/
  empty : s.writeback = none
  /-- The non-cached write buffer has room. -/
  room : s.stores.length < 16
  /-- No line is in both ways of a set. -/
  single : ∀ va, ((s.dset va).a.valid && (s.dset va).b.valid && (s.dset va).a.tag == (s.dset va).b.tag) = false
  /-- A valid clean line equals what the bus would read. -/
  current : ∀ va w, ((s.dset va).way w).valid = true → ((s.dset va).way w).dirty = false →
    ((s.dset va).way w).data =
      s.env.readLine s.mem (physical (lineAddress ((s.dset va).way w).tag (setIndex va)))
  /-- A valid dirty line can be written back: RAM lies under it. -/
  backed : ∀ va w, ((s.dset va).way w).valid = true → ((s.dset va).way w).dirty = true → ∀ i, i < 64 →
    s.writableAt (physical (lineAddress ((s.dset va).way w).tag (setIndex va)) + i) = true

/-! ## What an operation does to a cache set (R111, R385) -/

/-- The way that a miss fills (R111): the invalid one if exactly one is invalid, else the one that the LRU bit points to; with
both invalid, WayB if `fillWayB` holds and else WayA. That is the environment's choice (log entry 16), but for a Fill with Lock
in a set whose Lock is 1 (R393). -/
def FillsWay {δ : Type} (c : CacheSet δ) (fillWayB : Bool) (w : WaySel) : Prop :=
  (c.a.valid = true → c.b.valid = false → w = .b) ∧
  (c.a.valid = false → c.b.valid = true → w = .a) ∧
  (c.a.valid = true → c.b.valid = true → w = if c.lru then .b else .a) ∧
  (c.a.valid = false → c.b.valid = false → w = if fillWayB then .b else .a)

/-- `d` is `c` after an access to way `w`, which then holds the line `x`: the other way is as it was, the LRU bit points to it
unless Lock was 1, and Lock is `lock` (R111). -/
def AccessedWay {δ : Type} (c d : CacheSet δ) (w : WaySel) (x : Way δ) (lock : Bool) : Prop :=
  d.way w = x ∧ d.way w.other = c.way w.other ∧ d.lru = (if c.lock then c.lru else decide (w = .a)) ∧ d.lock = lock

/-- `d` is `c` with the line `x` in way `w` and Lock `lock`; the other way and the LRU bit are as they were (R385). -/
def ChangedWay {δ : Type} (c d : CacheSet δ) (w : WaySel) (x : Way δ) (lock : Bool) : Prop :=
  d.way w = x ∧ d.way w.other = c.way w.other ∧ d.lru = c.lru ∧ d.lock = lock

/-- Every instruction cache set but that of `va` is the same. -/
def SameOtherIsets (va : Word) (s t : State) : Prop := ∀ a, setIndex a ≠ setIndex va → t.iset a = s.iset a

/-- Every data cache set but that of `va` is the same. -/
def SameOtherDsets (va : Word) (s t : State) : Prop := ∀ a, setIndex a ≠ setIndex va → t.dset a = s.dset a

/-- The line in way `w` of the data cache set of `va` has gone to the writeback buffer, and what the buffer held to memory
(R114, R385, log entry 15). -/
def LineMovedOut (va : Word) (w : WaySel) (s t : State) : Prop :=
  t.writeback = some { va := lineAddress ((s.dset va).way w).tag (setIndex va), data := ((s.dset va).way w).data } ∧
  (s.writeback = none → t.mem = s.mem) ∧
  (∀ x, s.writeback = some x → t.mem = s.env.writeLine s.mem (physical x.va) x.data)

/-- The line in way `w` of the data cache set of `va` has been written back if it was dirty (R385); if not, memory and the
buffer are as they were. -/
def WrittenBackIfDirty (va : Word) (w : WaySel) (s t : State) : Prop :=
  (((s.dset va).way w).dirty = true → LineMovedOut va w s t) ∧
  (((s.dset va).way w).dirty = false → t.writeback = s.writeback ∧ t.mem = s.mem)

/-- A data cache miss has filled way `w` of the set of `va` with its line (R111, R112): its 64 bytes are what the bus reads,
after the writeback buffer has been emptied if it holds the line (log entry 15); a valid dirty victim has gone to the writeback
buffer; no other set has changed. `fillWayB` settles the way where both are invalid, and Lock is then `lock`. -/
def FilledD (va : Word) (w : WaySel) (fillWayB lock : Bool) (s t : State) : Prop :=
  FillsWay (s.dset va) fillWayB w ∧ SameOtherDsets va s t ∧ t.mem = s.refillMemory va ∧
  AccessedWay (s.dset va) (t.dset va) w
    { valid := true, tag := lineTag va, data := s.env.readLine (s.refillMemory va) (physicalLine va), dirty := false } lock ∧
  (s.writeback = none → s.refillMemory va = s.mem) ∧
  (∀ x, s.writeback = some x → s.refillMemory va =
    if x.va = lineAddress (lineTag va) (setIndex va) ∨ ((s.dset va).way w).valid = true ∧ ((s.dset va).way w).dirty = true
    then s.env.writeLine s.mem (physical x.va) x.data else s.mem) ∧
  (((s.dset va).way w).valid = true → ((s.dset va).way w).dirty = true → t.writeback =
    some { va := lineAddress ((s.dset va).way w).tag (setIndex va), data := ((s.dset va).way w).data }) ∧
  (((s.dset va).way w).valid = false ∨ ((s.dset va).way w).dirty = false →
    (s.writeback = none → t.writeback = none) ∧
    (∀ x, s.writeback = some x →
      t.writeback = if x.va = lineAddress (lineTag va) (setIndex va) then none else some x))

/-- An instruction cache miss has filled way `w` of the set of `va` with the 64 bytes that the bus reads (R111, R120, R391);
no other set has changed. `fillWayB` settles the way where both are invalid, and Lock is then `lock`. -/
def FilledI (va : Word) (w : WaySel) (fillWayB lock : Bool) (s t : State) : Prop :=
  FillsWay (s.iset va) fillWayB w ∧ SameOtherIsets va s t ∧
  AccessedWay (s.iset va) (t.iset va) w
    { valid := true, tag := lineTag va, data := s.env.readLine s.mem (physicalLine va), dirty := () } lock

/-! ## What a load or store that succeeds does to the data side -/

/-- `t` is `s` after a load through `va`, as far as the data side goes (R103, R111, R112). -/
structure DataRead (va : Word) (s t : State) : Prop where
  /-- The non-cached write buffer is as it was. -/
  stores : t.stores = s.stores
  /-- A non-cached load changes nothing. -/
  direct : cachedAddress va = false → t.dcache = s.dcache ∧ t.writeback = s.writeback ∧ t.mem = s.mem
  /-- A hit changes only the LRU bit. -/
  hit : cachedAddress va = true → ∀ w, (s.dset va).find (lineTag va) = some w →
    t.writeback = s.writeback ∧ t.mem = s.mem ∧ SameOtherDsets va s t ∧
    AccessedWay (s.dset va) (t.dset va) w ((s.dset va).way w) (s.dset va).lock
  /-- A miss fills the line. -/
  miss : cachedAddress va = true → (s.dset va).find (lineTag va) = none → ∃ w, FilledD va w s.env.fillWayB (s.dset va).lock s t

/-- The line of `va`, valid and dirty, with the bytes `bs` written over the data `d` from `va` on (R113). -/
def writtenWay (va : Word) (bs : List Byte) (d : Line) : Way Bool :=
  { valid := true, tag := lineTag va, data := lineWrite d va bs, dirty := true }

/-- `t` is `s` after a store of the bytes `bs` from `va` on, as far as the data side goes (R104, R111, R113, R116). -/
structure DataWritten (va : Word) (bs : List Byte) (s t : State) : Prop where
  /-- A non-cached store is one more entry of the non-cached write buffer; of the caches and the writeback buffer nothing
  changes. -/
  direct : cachedAddress va = false → t.dcache = s.dcache ∧ t.writeback = s.writeback ∧
    (s.stores.length < 16 → t.stores = s.stores ++ [{ va := va, bytes := bs }] ∧ t.mem = s.mem) ∧
    (s.stores.length = 16 → t.stores = s.stores.drop 1 ++ [{ va := va, bytes := bs }] ∧
      t.mem = s.env.commitStores s.mem (s.stores.take 1))
  /-- A cached store leaves its line in the cache and changes no other set. -/
  cached : cachedAddress va = true → t.stores = s.stores ∧ SameOtherDsets va s t ∧
    ((t.dset va).find (lineTag va)).isSome = true
  /-- A hit writes the way that hit. -/
  hit : cachedAddress va = true → ∀ w, (s.dset va).find (lineTag va) = some w →
    t.writeback = s.writeback ∧ t.mem = s.mem ∧
    AccessedWay (s.dset va) (t.dset va) w (writtenWay va bs ((s.dset va).way w).data) (s.dset va).lock
  /-- A miss fills the line, as a load that misses does, and writes the way that it filled. -/
  miss : cachedAddress va = true → (s.dset va).find (lineTag va) = none →
    ∃ r w, FilledD va w s.env.fillWayB (s.dset va).lock s r ∧ t.writeback = r.writeback ∧ t.mem = r.mem ∧
      AccessedWay (s.dset va) (t.dset va) w
        (writtenWay va bs (s.env.readLine (s.refillMemory va) (physicalLine va))) (s.dset va).lock

end Machine

/-! ## Which instructions write what -/

/-- The general register that an instruction writes, if any (R200, R230, R280, R303, R356, R358, R380). -/
def Instr.destination : Instr → Option Reg
  | .lb _ rt _ => some rt
  | .lbu _ rt _ => some rt
  | .lh _ rt _ => some rt
  | .lhu _ rt _ => some rt
  | .lwl _ rt _ => some rt
  | .lwr _ rt _ => some rt
  | .ll _ rt _ => some rt
  | .lw _ rt _ => some rt
  | .sc _ rt _ => some rt
  | .addi _ rt _ => some rt
  | .addiu _ rt _ => some rt
  | .slti _ rt _ => some rt
  | .sltiu _ rt _ => some rt
  | .andi _ rt _ => some rt
  | .ori _ rt _ => some rt
  | .xori _ rt _ => some rt
  | .lui rt _ => some rt
  | .ext _ rt _ _ => some rt
  | .ins _ rt _ _ => some rt
  | .mfc0 rt _ => some rt
  | .mfc1 rt _ => some rt
  | .cfc1 rt _ => some rt
  | .mfc2 rt _ => some rt
  | .cfc2 rt _ => some rt
  | .mfc3 rt _ => some rt
  | .cfc3 rt _ => some rt
  | .add _ _ rd => some rd
  | .addu _ _ rd => some rd
  | .sub _ _ rd => some rd
  | .subu _ _ rd => some rd
  | .slt _ _ rd => some rd
  | .sltu _ _ rd => some rd
  | .and _ _ rd => some rd
  | .or _ _ rd => some rd
  | .xor _ _ rd => some rd
  | .nor _ _ rd => some rd
  | .sll _ rd _ => some rd
  | .srl _ rd _ => some rd
  | .sra _ rd _ => some rd
  | .sllv _ _ rd => some rd
  | .srlv _ _ rd => some rd
  | .srav _ _ rd => some rd
  | .mfhi rd => some rd
  | .mflo rd => some rd
  | .max _ _ rd => some rd
  | .min _ _ rd => some rd
  | .movn _ _ rd => some rd
  | .movz _ _ rd => some rd
  | .seb _ rd => some rd
  | .seh _ rd => some rd
  | .rotr _ rd _ => some rd
  | .rotrv _ _ rd => some rd
  | .wsbh _ rd => some rd
  | .wsbw _ rd => some rd
  | .bitrev _ rd => some rd
  | .clz _ rd => some rd
  | .clo _ rd => some rd
  | .jalr _ rd => some rd
  | .jal .. | .bltzal .. | .bgezal .. | .bltzall .. | .bgezall .. => some 31#5
  | .sb .. | .sh .. | .swl .. | .swr .. | .sw .. | .mult .. | .multu .. | .div .. | .divu .. | .mthi .. | .mtlo ..
  | .madd .. | .maddu .. | .msub .. | .msubu .. | .j .. | .jr .. | .beq .. | .bne .. | .blez .. | .bgtz .. | .bltz ..
  | .bgez .. | .bltzl .. | .bgezl .. | .beql .. | .bnel .. | .blezl .. | .bgtzl .. | .syscall .. | .brk .. | .sync
  | .lwc1 .. | .swc1 .. | .mtc1 .. | .ctc1 .. | .cop1 .. | .bc1f .. | .bc1t .. | .bc1fl .. | .bc1tl .. | .lwc2 ..
  | .swc2 .. | .mtc2 .. | .ctc2 .. | .cop2 .. | .bc2f .. | .bc2t .. | .bc2fl .. | .bc2tl .. | .lwc3 .. | .swc3 ..
  | .mtc3 .. | .ctc3 .. | .cop3 .. | .bc3f .. | .bc3t .. | .bc3fl .. | .bc3tl .. | .mtc0 .. | .eret | .cache .. => none

/-- Whether an instruction goes to memory, a cache or a buffer: the loads and stores, SYNC and CACHE. -/
def Instr.usesMemory : Instr → Bool
  | .lb .. | .lbu .. | .lh .. | .lhu .. | .lwl .. | .lwr .. | .ll .. | .lw .. | .sb .. | .sh .. | .swl .. | .swr ..
  | .sc .. | .sw .. | .sync | .lwc1 .. | .swc1 .. | .lwc2 .. | .swc2 .. | .lwc3 .. | .swc3 .. | .cache .. => true
  | .addi .. | .addiu .. | .slti .. | .sltiu .. | .andi .. | .ori .. | .xori .. | .lui .. | .add .. | .addu ..
  | .sub .. | .subu .. | .slt .. | .sltu .. | .and .. | .or .. | .xor .. | .nor .. | .sll .. | .srl .. | .sra ..
  | .sllv .. | .srlv .. | .srav .. | .mult .. | .multu .. | .div .. | .divu .. | .mfhi .. | .mflo .. | .mthi ..
  | .mtlo .. | .madd .. | .maddu .. | .msub .. | .msubu .. | .max .. | .min .. | .movn .. | .movz .. | .ext ..
  | .ins .. | .seb .. | .seh .. | .rotr .. | .rotrv .. | .wsbh .. | .wsbw .. | .bitrev .. | .clz .. | .clo .. | .j ..
  | .jal .. | .jr .. | .jalr .. | .beq .. | .bne .. | .blez .. | .bgtz .. | .bltz .. | .bgez .. | .bltzal ..
  | .bgezal .. | .bltzl .. | .bgezl .. | .bltzall .. | .bgezall .. | .beql .. | .bnel .. | .blezl .. | .bgtzl ..
  | .syscall .. | .brk .. | .mtc1 .. | .mfc1 .. | .ctc1 .. | .cfc1 .. | .cop1 .. | .bc1f .. | .bc1t .. | .bc1fl ..
  | .bc1tl .. | .mtc2 .. | .mfc2 .. | .ctc2 .. | .cfc2 .. | .cop2 .. | .bc2f .. | .bc2t .. | .bc2fl .. | .bc2tl ..
  | .mtc3 .. | .mfc3 .. | .ctc3 .. | .cfc3 .. | .cop3 .. | .bc3f .. | .bc3t .. | .bc3fl .. | .bc3tl .. | .mfc0 ..
  | .mtc0 .. | .eret => false

/-- Whether an instruction writes HI or LO (R30). -/
def Instr.writesHiLo : Instr → Bool
  | .mult .. | .multu .. | .div .. | .divu .. | .mthi .. | .mtlo .. | .madd .. | .maddu .. | .msub .. | .msubu .. => true
  | .lb .. | .lbu .. | .lh .. | .lhu .. | .lwl .. | .lwr .. | .ll .. | .lw .. | .sb .. | .sh .. | .swl .. | .swr ..
  | .sc .. | .sw .. | .addi .. | .addiu .. | .slti .. | .sltiu .. | .andi .. | .ori .. | .xori .. | .lui .. | .add ..
  | .addu .. | .sub .. | .subu .. | .slt .. | .sltu .. | .and .. | .or .. | .xor .. | .nor .. | .sll .. | .srl ..
  | .sra .. | .sllv .. | .srlv .. | .srav .. | .mfhi .. | .mflo .. | .max .. | .min .. | .movn .. | .movz ..
  | .ext .. | .ins .. | .seb .. | .seh .. | .rotr .. | .rotrv .. | .wsbh .. | .wsbw .. | .bitrev .. | .clz ..
  | .clo .. | .j .. | .jal .. | .jr .. | .jalr .. | .beq .. | .bne .. | .blez .. | .bgtz .. | .bltz .. | .bgez ..
  | .bltzal .. | .bgezal .. | .bltzl .. | .bgezl .. | .bltzall .. | .bgezall .. | .beql .. | .bnel .. | .blezl ..
  | .bgtzl .. | .syscall .. | .brk .. | .sync | .lwc1 .. | .swc1 .. | .mtc1 .. | .mfc1 .. | .ctc1 .. | .cfc1 ..
  | .cop1 .. | .bc1f .. | .bc1t .. | .bc1fl .. | .bc1tl .. | .lwc2 .. | .swc2 .. | .mtc2 .. | .mfc2 .. | .ctc2 ..
  | .cfc2 .. | .cop2 .. | .bc2f .. | .bc2t .. | .bc2fl .. | .bc2tl .. | .lwc3 .. | .swc3 .. | .mtc3 .. | .mfc3 ..
  | .ctc3 .. | .cfc3 .. | .cop3 .. | .bc3f .. | .bc3t .. | .bc3fl .. | .bc3tl .. | .mfc0 .. | .mtc0 .. | .eret
  | .cache .. => false

/-- The coprocessor whose registers, condition or request an instruction may change (R353, R355, R357, R359). -/
def Instr.changesCop : Instr → Option Cop
  | .lwc1 .. | .mtc1 .. | .ctc1 .. | .cop1 .. => some .cp1
  | .lwc2 .. | .mtc2 .. | .ctc2 .. | .cop2 .. => some .cp2
  | .lwc3 .. | .mtc3 .. | .ctc3 .. | .cop3 .. => some .cp3
  | .lb .. | .lbu .. | .lh .. | .lhu .. | .lwl .. | .lwr .. | .ll .. | .lw .. | .sb .. | .sh .. | .swl .. | .swr ..
  | .sc .. | .sw .. | .addi .. | .addiu .. | .slti .. | .sltiu .. | .andi .. | .ori .. | .xori .. | .lui .. | .add ..
  | .addu .. | .sub .. | .subu .. | .slt .. | .sltu .. | .and .. | .or .. | .xor .. | .nor .. | .sll .. | .srl ..
  | .sra .. | .sllv .. | .srlv .. | .srav .. | .mult .. | .multu .. | .div .. | .divu .. | .mfhi .. | .mflo ..
  | .mthi .. | .mtlo .. | .madd .. | .maddu .. | .msub .. | .msubu .. | .max .. | .min .. | .movn .. | .movz ..
  | .ext .. | .ins .. | .seb .. | .seh .. | .rotr .. | .rotrv .. | .wsbh .. | .wsbw .. | .bitrev .. | .clz ..
  | .clo .. | .j .. | .jal .. | .jr .. | .jalr .. | .beq .. | .bne .. | .blez .. | .bgtz .. | .bltz .. | .bgez ..
  | .bltzal .. | .bgezal .. | .bltzl .. | .bgezl .. | .bltzall .. | .bgezall .. | .beql .. | .bnel .. | .blezl ..
  | .bgtzl .. | .syscall .. | .brk .. | .sync | .swc1 .. | .mfc1 .. | .cfc1 .. | .bc1f .. | .bc1t .. | .bc1fl ..
  | .bc1tl .. | .swc2 .. | .mfc2 .. | .cfc2 .. | .bc2f .. | .bc2t .. | .bc2fl .. | .bc2tl .. | .swc3 .. | .mfc3 ..
  | .cfc3 .. | .bc3f .. | .bc3t .. | .bc3fl .. | .bc3tl .. | .mfc0 .. | .mtc0 .. | .eret | .cache .. => none

/-- The coprocessor class of an instruction (R350): none for an instruction of the core, 0 for CP0. -/
def Instr.copClass : Instr → Option (BitVec 2)
  | .mfc0 .. | .mtc0 .. | .eret | .cache .. => some 0#2
  | .lwc1 .. | .swc1 .. | .mtc1 .. | .mfc1 .. | .ctc1 .. | .cfc1 .. | .cop1 .. | .bc1f .. | .bc1t .. | .bc1fl ..
  | .bc1tl .. => some 1#2
  | .lwc2 .. | .swc2 .. | .mtc2 .. | .mfc2 .. | .ctc2 .. | .cfc2 .. | .cop2 .. | .bc2f .. | .bc2t .. | .bc2fl ..
  | .bc2tl .. => some 2#2
  | .lwc3 .. | .swc3 .. | .mtc3 .. | .mfc3 .. | .ctc3 .. | .cfc3 .. | .cop3 .. | .bc3f .. | .bc3t .. | .bc3fl ..
  | .bc3tl .. => some 3#2
  | .lb .. | .lbu .. | .lh .. | .lhu .. | .lwl .. | .lwr .. | .ll .. | .lw .. | .sb .. | .sh .. | .swl .. | .swr ..
  | .sc .. | .sw .. | .addi .. | .addiu .. | .slti .. | .sltiu .. | .andi .. | .ori .. | .xori .. | .lui .. | .add ..
  | .addu .. | .sub .. | .subu .. | .slt .. | .sltu .. | .and .. | .or .. | .xor .. | .nor .. | .sll .. | .srl ..
  | .sra .. | .sllv .. | .srlv .. | .srav .. | .mult .. | .multu .. | .div .. | .divu .. | .mfhi .. | .mflo ..
  | .mthi .. | .mtlo .. | .madd .. | .maddu .. | .msub .. | .msubu .. | .max .. | .min .. | .movn .. | .movz ..
  | .ext .. | .ins .. | .seb .. | .seh .. | .rotr .. | .rotrv .. | .wsbh .. | .wsbw .. | .bitrev .. | .clz ..
  | .clo .. | .j .. | .jal .. | .jr .. | .jalr .. | .beq .. | .bne .. | .blez .. | .bgtz .. | .bltz .. | .bgez ..
  | .bltzal .. | .bgezal .. | .bltzl .. | .bgezl .. | .bltzall .. | .bgezall .. | .beql .. | .bnel .. | .blezl ..
  | .bgtzl .. | .syscall .. | .brk .. | .sync => none

/-- The jumps and branches of the core (44_jump_branch.md). -/
def Instr.isTransfer : Instr → Bool
  | .j .. | .jal .. | .jr .. | .jalr .. | .beq .. | .bne .. | .blez .. | .bgtz .. | .bltz .. | .bgez .. | .bltzal ..
  | .bgezal .. | .bltzl .. | .bgezl .. | .bltzall .. | .bgezall .. | .beql .. | .bnel .. | .blezl .. | .bgtzl .. => true
  | .lb .. | .lbu .. | .lh .. | .lhu .. | .lwl .. | .lwr .. | .ll .. | .lw .. | .sb .. | .sh .. | .swl .. | .swr ..
  | .sc .. | .sw .. | .addi .. | .addiu .. | .slti .. | .sltiu .. | .andi .. | .ori .. | .xori .. | .lui .. | .add ..
  | .addu .. | .sub .. | .subu .. | .slt .. | .sltu .. | .and .. | .or .. | .xor .. | .nor .. | .sll .. | .srl ..
  | .sra .. | .sllv .. | .srlv .. | .srav .. | .mult .. | .multu .. | .div .. | .divu .. | .mfhi .. | .mflo ..
  | .mthi .. | .mtlo .. | .madd .. | .maddu .. | .msub .. | .msubu .. | .max .. | .min .. | .movn .. | .movz ..
  | .ext .. | .ins .. | .seb .. | .seh .. | .rotr .. | .rotrv .. | .wsbh .. | .wsbw .. | .bitrev .. | .clz ..
  | .clo .. | .syscall .. | .brk .. | .sync | .lwc1 .. | .swc1 .. | .mtc1 .. | .mfc1 .. | .ctc1 .. | .cfc1 ..
  | .cop1 .. | .bc1f .. | .bc1t .. | .bc1fl .. | .bc1tl .. | .lwc2 .. | .swc2 .. | .mtc2 .. | .mfc2 .. | .ctc2 ..
  | .cfc2 .. | .cop2 .. | .bc2f .. | .bc2t .. | .bc2fl .. | .bc2tl .. | .lwc3 .. | .swc3 .. | .mtc3 .. | .mfc3 ..
  | .ctc3 .. | .cfc3 .. | .cop3 .. | .bc3f .. | .bc3t .. | .bc3fl .. | .bc3tl .. | .mfc0 .. | .mtc0 .. | .eret
  | .cache .. => false

/-- The loads and stores (R89). -/
def Instr.isLoadOrStore : Instr → Bool
  | .lb .. | .lbu .. | .lh .. | .lhu .. | .lwl .. | .lwr .. | .ll .. | .lw .. | .sb .. | .sh .. | .swl .. | .swr ..
  | .sc .. | .sw .. | .lwc1 .. | .swc1 .. | .lwc2 .. | .swc2 .. | .lwc3 .. | .swc3 .. => true
  | .addi .. | .addiu .. | .slti .. | .sltiu .. | .andi .. | .ori .. | .xori .. | .lui .. | .add .. | .addu ..
  | .sub .. | .subu .. | .slt .. | .sltu .. | .and .. | .or .. | .xor .. | .nor .. | .sll .. | .srl .. | .sra ..
  | .sllv .. | .srlv .. | .srav .. | .mult .. | .multu .. | .div .. | .divu .. | .mfhi .. | .mflo .. | .mthi ..
  | .mtlo .. | .madd .. | .maddu .. | .msub .. | .msubu .. | .max .. | .min .. | .movn .. | .movz .. | .ext ..
  | .ins .. | .seb .. | .seh .. | .rotr .. | .rotrv .. | .wsbh .. | .wsbw .. | .bitrev .. | .clz .. | .clo .. | .j ..
  | .jal .. | .jr .. | .jalr .. | .beq .. | .bne .. | .blez .. | .bgtz .. | .bltz .. | .bgez .. | .bltzal ..
  | .bgezal .. | .bltzl .. | .bgezl .. | .bltzall .. | .bgezall .. | .beql .. | .bnel .. | .blezl .. | .bgtzl ..
  | .syscall .. | .brk .. | .sync | .mtc1 .. | .mfc1 .. | .ctc1 .. | .cfc1 .. | .cop1 .. | .bc1f .. | .bc1t ..
  | .bc1fl .. | .bc1tl .. | .mtc2 .. | .mfc2 .. | .ctc2 .. | .cfc2 .. | .cop2 .. | .bc2f .. | .bc2t .. | .bc2fl ..
  | .bc2tl .. | .mtc3 .. | .mfc3 .. | .ctc3 .. | .cfc3 .. | .cop3 .. | .bc3f .. | .bc3t .. | .bc3fl .. | .bc3tl ..
  | .mfc0 .. | .mtc0 .. | .eret | .cache .. => false

namespace Machine

/-- A branch with target (A + 4) + 4 * offset, or the delay slot and then A + 8 (R300, R301). -/
def BranchResult (taken : Prop) (off : Imm16) (s : State) (r : Result) : Prop :=
  (taken → r = .next (s.transfer (BitVec.ofInt 32 (s.pc.toNat + 4 + 4 * off.toInt)))) ∧
    (¬taken → r = .next s.fallThrough)

/-- The same for a branch-likely, which skips its delay slot when it is not taken (R304). -/
def LikelyResult (taken : Prop) (off : Imm16) (s : State) (r : Result) : Prop :=
  (taken → r = .next (s.transfer (BitVec.ofInt 32 (s.pc.toNat + 4 + 4 * off.toInt)))) ∧
    (¬taken → r = .next s.nullify)

/-- A load or store of `n` bytes at `va` meets no address error (R86, R96, R101). -/
def Permitted (s : State) (va : Word) (n : Nat) : Prop :=
  va.toNat % n = 0 ∧ ∃ m, s.mode = some m ∧ allowedAddress m va = true

/-- The bytes that loads deliver from `n` consecutive addresses. -/
def State.bytesAt (s : State) (va : Word) (n : Nat) : List Byte := (addresses va n).map s.byteAt

/-- Every dirty line of the data cache that holds the physical bytes of `a`'s line is `a`'s own line: no store went to them
through another virtual address (R117). -/
def State.Unaliased (s : State) (a : Word) : Prop :=
  ∀ va w, ((s.dset va).way w).valid = true → ((s.dset va).way w).dirty = true →
    physical (lineAddress ((s.dset va).way w).tag (setIndex va)) = physicalLine a →
    lineAddress ((s.dset va).way w).tag (setIndex va) = lineAddress (lineTag a) (setIndex a)

/-- The virtual addresses of the bytes that an instruction stores: computed as its meaning computes them. -/
def storedAddresses (i : Instr) (s : State) : List Word :=
  match i with
  | .sb base _ off => addresses (s.effectiveAddress base off) 1
  | .sh base _ off => addresses (s.effectiveAddress base off) 2
  | .sw base _ off | .swc1 base _ off | .swc2 base _ off | .swc3 base _ off =>
    addresses (s.effectiveAddress base off) 4
  | .sc base _ off => if s.llBit then addresses (s.effectiveAddress base off) 4 else []
  | .swl base _ off =>
    addresses (leftPart s.bigEndian (s.effectiveAddress base off)).start
      (leftPart s.bigEndian (s.effectiveAddress base off)).count
  | .swr base _ off =>
    addresses (rightPart s.bigEndian (s.effectiveAddress base off)).start
      (rightPart s.bigEndian (s.effectiveAddress base off)).count
  | .lb .. | .lbu .. | .lh .. | .lhu .. | .lwl .. | .lwr .. | .ll .. | .lw .. | .addi .. | .addiu .. | .slti ..
  | .sltiu .. | .andi .. | .ori .. | .xori .. | .lui .. | .add .. | .addu .. | .sub .. | .subu .. | .slt ..
  | .sltu .. | .and .. | .or .. | .xor .. | .nor .. | .sll .. | .srl .. | .sra .. | .sllv .. | .srlv .. | .srav ..
  | .mult .. | .multu .. | .div .. | .divu .. | .mfhi .. | .mflo .. | .mthi .. | .mtlo .. | .madd .. | .maddu ..
  | .msub .. | .msubu .. | .max .. | .min .. | .movn .. | .movz .. | .ext .. | .ins .. | .seb .. | .seh .. | .rotr ..
  | .rotrv .. | .wsbh .. | .wsbw .. | .bitrev .. | .clz .. | .clo .. | .j .. | .jal .. | .jr .. | .jalr .. | .beq ..
  | .bne .. | .blez .. | .bgtz .. | .bltz .. | .bgez .. | .bltzal .. | .bgezal .. | .bltzl .. | .bgezl ..
  | .bltzall .. | .bgezall .. | .beql .. | .bnel .. | .blezl .. | .bgtzl .. | .syscall .. | .brk .. | .sync
  | .lwc1 .. | .mtc1 .. | .mfc1 .. | .ctc1 .. | .cfc1 .. | .cop1 .. | .bc1f .. | .bc1t .. | .bc1fl .. | .bc1tl ..
  | .lwc2 .. | .mtc2 .. | .mfc2 .. | .ctc2 .. | .cfc2 .. | .cop2 .. | .bc2f .. | .bc2t .. | .bc2fl .. | .bc2tl ..
  | .lwc3 .. | .mtc3 .. | .mfc3 .. | .ctc3 .. | .cfc3 .. | .cop3 .. | .bc3f .. | .bc3t .. | .bc3fl .. | .bc3tl ..
  | .mfc0 .. | .mtc0 .. | .eret | .cache .. => []

/-- CP0 is usable (R350). -/
def State.cp0Usable (s : State) : Prop := s.cp0.status.cu.getLsbD 0 = true ∨ s.mode = some .kernel

/-! ## Runs -/

/-- `t` follows `s` by one step. -/
def StepsTo (s t : State) : Prop := step s = .next t

/-- A run of `n` steps from `s` meets no refusal. -/
def SafeRun : Nat → State → Prop
  | 0, _ => True
  | n + 1, s => ∃ t, StepsTo s t ∧ SafeRun n t

end Machine

end Sys2Proof
end

