-- ==== Sys2Proof/Certificates/Slice0/Obligations.lean ====
section
/-! DEFINITION. The statements about the machine, for the provers. `exec` is the meaning of an instruction, `step` the
machine's step; `takeException e s` the state after the general exception `e`; `retire`, `transfer`, `fallThrough` and
`nullify` the ways an instruction moves the program counter on. -/

open Sys2Proof Sys2Proof.Machine

/-- For every well-formed instruction, with every operand at every value its field admits, the decoder reads the instruction back from the word that the encoder writes: no bit of an encoding is dropped. -/
def Obligations.DecodeOfEncode : Prop :=
  ∀ i : Instr, i.wellFormed = true → decode (encode i) = .ok i

/-- If the decoder reads an instruction from a word, the instruction is well-formed and its encoding is that word, so no two words mean one instruction and every blank field is zero. -/
def Obligations.EncodeOfDecode : Prop :=
  ∀ (w : Word) (i : Instr), decode w = .ok i → i.wellFormed = true ∧ encode i = w

/-- One word of each family, written out in the spec, decodes to the instruction the spec gives for it. The words stand in the spec's examples; their opcode numbers are general knowledge and not the source's (GK1, GK10, GK11; log entry 1). -/
def Obligations.DecodedWords : Prop :=
  decode 0x8062FFFF#32 = .ok (.lb 3 2 0xFFFF) ∧ decode 0xAFA2FFFC#32 = .ok (.sw 29 2 0xFFFC) ∧
    decode 0x00A62020#32 = .ok (.add 5 6 4) ∧ decode 0x00A6001A#32 = .ok (.div 5 6) ∧
    decode 0x7CA49A04#32 = .ok (.ins 5 4 19 8) ∧ decode 0x00252202#32 = .ok (.rotr 5 4 8) ∧
    decode 0x10850007#32 = .ok (.beq 4 5 7) ∧ decode 0x0E000100#32 = .ok (.jal 0x2000100) ∧
    decode 0x0048D14C#32 = .ok (.syscall 0x12345) ∧ decode 0xC4A40004#32 = .ok (.lwc1 5 4 4) ∧
    decode 0x45000007#32 = .ok (.bc1f 7) ∧ decode 0x40026000#32 = .ok (.mfc0 2 .status) ∧
    decode 0x42000018#32 = .ok .eret ∧ decode 0xBC9A0000#32 = .ok (.cache 4 .hitWritebackD 0)

/-- When no event, FPU exception or interrupt is in the way and the word fetched at pc decodes to i, the step is the meaning of i in the state after the fetch, followed by the advance of Count; so it is for every i but a CTC1 or a COP1 operation that makes the FPU request an exception at itself, which is then taken in its place with the FPU left as the instruction left it (R359, R437, log entry 19). (State.begin reads the next input of the environment, if any, and lets the FPU's request and the outside's time go on; the fetch changes nothing but the instruction cache.) -/
def Obligations.StepRunsDecodedInstruction : Prop :=
  ∀ (s t : State) (w : Word) (i : Instr) (m : Mode),
    s.event = none → s.begin.mode = some m → s.begin.fpeDue = false → s.begin.interruptCondition = false →
    fetch s.begin = .ok w t → decode w = .ok i →
    t = { s.begin with icache := t.icache } ∧
    ((∀ u, exec i t = .next u → u.raisesFpe t = false) → step s = onNext State.endStep (exec i t)) ∧
    (∀ u, exec i t = .next u → u.raisesFpe t = true →
      i.changesCop = some .cp1 ∧ step s = .next (takeException .fpe (t.withFpuOf u)).endStep) ∧
    (i.changesCop ≠ some .cp1 → step s = onNext State.endStep (exec i t))

/-- A word that decodes to nothing raises CpU(0) for major opcode COP0 outside kernel mode with CU0 = 0 and CpU(z) for major opcode COPz with CUz = 0. Otherwise a COP3 word is refused, and any other raises RI exactly if Config.reservedSet holds of it and is else refused (log entry 20). -/
def Obligations.UnmatchedWord : Prop :=
  ∀ (s : State) (w : Word) (u : Undecodable) (r : Result), decode w = .error u →
    r = (if Config.reservedSet w then .next (takeException .ri s) else .refused .unmatchedWord) →
    (fOp w = 0x10#6 → s.cp0.status.cu.getLsbD 0 = false → (s.mode = some .user ∨ s.mode = some .supervisor) →
      runWord w s = .next (takeException (.cpU 0) s)) ∧
    (fOp w = 0x10#6 → s.cp0Usable → runWord w s = r) ∧
    (fOp w = 0x11#6 → runWord w s =
      if s.cp0.status.cu.getLsbD 1 = true then r else .next (takeException (.cpU 1) s)) ∧
    (fOp w = 0x12#6 → runWord w s =
      if s.cp0.status.cu.getLsbD 2 = true then r else .next (takeException (.cpU 2) s)) ∧
    (fOp w = 0x13#6 → runWord w s =
      if s.cp0.status.cu.getLsbD 3 = true then .refused .cop3Absent else .next (takeException (.cpU 3) s)) ∧
    (fOp w ≠ 0x10#6 → fOp w ≠ 0x11#6 → fOp w ≠ 0x12#6 → fOp w ≠ 0x13#6 → runWord w s = r)

/-- From every state with the invariant (canonical memory, r0 entry 0, npc = pc + 4 outside a delay slot, at most 16 buffered stores, each of one word of a non-cached segment, a line-aligned writeback buffer) a step to a next state leads to a state with the invariant. -/
def Obligations.StepKeepsInvariant : Prop :=
  ∀ s t : State, s.Inv → step s = .next t → t.Inv

/-- State.reset has the invariant that every step keeps. Its unstated register values are the model's (log entry 9). -/
def Obligations.ResetInvariant : Prop :=
  State.reset.Inv

/-- What the spec states of the state after a hardware reset holds of State.reset: pc, npc, no delay slot, ERL, BEV, SR, kernel mode, interrupts disabled, little-endian, every instruction cache line invalid, both write buffers empty, r0 = 0. -/
def Obligations.ResetState : Prop :=
  State.reset.pc = 0xBFC00000#32 ∧ State.reset.npc = 0xBFC00004#32 ∧ State.reset.inDelaySlot = false ∧
    State.reset.cp0.status.erl = true ∧ State.reset.cp0.status.bev = true ∧ State.reset.cp0.status.sr = false ∧
    State.reset.mode = some .kernel ∧ State.reset.interruptCondition = false ∧ State.reset.bigEndian = false ∧
    State.reset.writeback = none ∧ State.reset.stores = [] ∧ State.reset.reg 0#5 = 0 ∧
    (∀ va w, ((State.reset.iset va).way w).valid = false)

/-- Kernel mode when ERL = 1, EXL = 1 or KSU = 00; supervisor mode for KSU = 01 and user mode for KSU = 10 with ERL = EXL = 0; with KSU = 11 and ERL = EXL = 0 a step without an event is refused (the spec's decision D43). -/
def Obligations.OperatingMode : Prop :=
  ∀ s : State,
    ((s.cp0.status.erl = true ∨ s.cp0.status.exl = true ∨ s.cp0.status.ksu = 0b00#2) → s.mode = some .kernel) ∧
    (s.cp0.status.erl = false → s.cp0.status.exl = false → s.cp0.status.ksu = 0b01#2 → s.mode = some .supervisor) ∧
    (s.cp0.status.erl = false → s.cp0.status.exl = false → s.cp0.status.ksu = 0b10#2 → s.mode = some .user) ∧
    (s.cp0.status.erl = false → s.cp0.status.exl = false → s.cp0.status.ksu = 0b11#2 → s.event = none →
      step s = .refused .reservedMode)

/-- Interrupts are enabled exactly when Status.IE = 1, Status.EXL = 0 and Status.ERL = 0. -/
def Obligations.InterruptsEnabledExactlyWhen : Prop :=
  ∀ st : Status, st.interruptsEnabled = true ↔ st.ie = true ∧ st.exl = false ∧ st.erl = false

/-- User mode may reference an address exactly when its bit 31 is 0; supervisor mode also segment 110; kernel mode everything. An aligned fetch, load or store that the mode does not allow raises an address error (AdEL for fetch and load, AdES for store); one that it allows passes the checks. A virtual address below 0x80000000 maps to its low 30 bits and any other to its low 29 bits (the spec's decision D3, log entry 4); 0xBFC00000 is physical 0x1FC00000. An address goes through the caches exactly if it lies in the lower half of kuseg (GK4, log entry 4), in kseg0, or at or above 0xC0000000 (ksseg, kseg3). -/
def Obligations.AddressMap : Prop :=
  ∀ (s : State) (m : Mode) (k : AccessKind) (n : Nat) (va : Word), s.mode = some m → aligned n va = true →
    (allowedAddress .user va = true ↔ va.toNat < 0x80000000) ∧
    (allowedAddress .supervisor va = true ↔ va.toNat < 0x80000000 ∨ va.toNat / 0x20000000 = 6) ∧
    allowedAddress .kernel va = true ∧
    (cachedAddress va = true ↔ va.toNat < 0x40000000 ∨ (0x80000000 ≤ va.toNat ∧ va.toNat < 0xA0000000) ∨
      0xC0000000 ≤ va.toNat) ∧
    (allowedAddress m va = true → checkAddress k n va s = .ok () s) ∧
    (allowedAddress m va = false → k ≠ .store → checkAddress k n va s = .raise (.adEL va)) ∧
    (allowedAddress m va = false → k = .store → checkAddress k n va s = .raise (.adES va)) ∧
    (va.toNat < 0x80000000 → physical va = va.toNat % 2 ^ 30) ∧
    (0x80000000 ≤ va.toNat → physical va = va.toNat % 2 ^ 29) ∧
    physical 0xBFC00000#32 = 0x1FC00000

/-- A data access is big-endian exactly in user mode with Status.RE = 1; in kernel and supervisor modes it is little-endian whatever RE is; after every reset and NMI it is little-endian. -/
def Obligations.ByteOrder : Prop :=
  (∀ s : State, s.bigEndian = true ↔ s.mode = some .user ∧ s.cp0.status.re = true) ∧
    (∀ s : State, s.mode = some .kernel ∨ s.mode = some .supervisor → s.bigEndian = false) ∧
    (∀ (k : ErrorException) (s : State), (errorEntry k s).mode = some .kernel ∧ (errorEntry k s).bigEndian = false)

/-- The value of one to four bytes in address order is the sum of the bytes weighted from the lowest address up in little-endian order and from the highest address down in big-endian order (log entry 5), zero above; laying out the one to four low bytes of a value puts its lowest byte at the lowest address in little-endian and at the highest in big-endian order. -/
def Obligations.ValueAssembly : Prop :=
  ∀ (a b c d : Byte) (v : Word),
    assemble false [a, b, c, d] = d ++ c ++ b ++ a ∧ assemble true [a, b, c, d] = a ++ b ++ c ++ d ∧
    assemble false [a, b, c] = 0#8 ++ c ++ b ++ a ∧ assemble true [a, b, c] = 0#8 ++ a ++ b ++ c ∧
    assemble false [a, b] = 0#16 ++ b ++ a ∧ assemble true [a, b] = 0#16 ++ a ++ b ∧
    assemble false [a] = 0#24 ++ a ∧ assemble true [a] = 0#24 ++ a ∧
    layOut false 4 v = [v.extractLsb' 0 8, v.extractLsb' 8 8, v.extractLsb' 16 8, v.extractLsb' 24 8] ∧
    layOut true 4 v = [v.extractLsb' 24 8, v.extractLsb' 16 8, v.extractLsb' 8 8, v.extractLsb' 0 8] ∧
    layOut false 3 v = [v.extractLsb' 0 8, v.extractLsb' 8 8, v.extractLsb' 16 8] ∧
    layOut true 3 v = [v.extractLsb' 16 8, v.extractLsb' 8 8, v.extractLsb' 0 8] ∧
    layOut false 2 v = [v.extractLsb' 0 8, v.extractLsb' 8 8] ∧
    layOut true 2 v = [v.extractLsb' 8 8, v.extractLsb' 0 8] ∧
    layOut false 1 v = [v.extractLsb' 0 8] ∧ layOut true 1 v = [v.extractLsb' 0 8]

/-- In every state each completes; the next state is the old one with the result in rt (discarded for r0) and pc moved on. ADDIU wraps, SLTI compares signed, SLTIU sign-extends and compares unsigned, the logical ones zero-extend, LUI multiplies by 65536. -/
def Obligations.ImmediateResults : Prop :=
  ∀ (s : State) (rs rt : Reg) (imm : Imm16),
    exec (.addiu rs rt imm) s =
      .next ((s.setReg rt (BitVec.ofInt 32 ((s.reg rs).toInt + imm.toInt))).retire .other) ∧
    exec (.slti rs rt imm) s = .next ((s.setReg rt (if (s.reg rs).toInt < imm.toInt then 1 else 0)).retire .other) ∧
    exec (.sltiu rs rt imm) s =
      .next ((s.setReg rt (if (s.reg rs).toNat < (BitVec.ofInt 32 imm.toInt).toNat then 1 else 0)).retire .other) ∧
    exec (.andi rs rt imm) s = .next ((s.setReg rt (s.reg rs &&& BitVec.ofNat 32 imm.toNat)).retire .other) ∧
    exec (.ori rs rt imm) s = .next ((s.setReg rt (s.reg rs ||| BitVec.ofNat 32 imm.toNat)).retire .other) ∧
    exec (.xori rs rt imm) s = .next ((s.setReg rt (s.reg rs ^^^ BitVec.ofNat 32 imm.toNat)).retire .other) ∧
    exec (.lui rt imm) s = .next ((s.setReg rt (BitVec.ofNat 32 (imm.toNat * 65536))).retire .other)

/-- Where the exact signed sum or difference lies in [-2^31, 2^31 - 1] the instruction completes with it; where it lies outside, Ov is taken in the state before the instruction. That overflow means that the exact sum or difference lies outside this range is general knowledge and not the source's (GK13, R231; log entry 30). -/
def Obligations.OverflowOrResult : Prop :=
  ∀ (s : State) (rs rt rd : Reg) (imm : Imm16) (sum : Int),
    (sum = (s.reg rs).toInt + (s.reg rt).toInt →
      exec (.add rs rt rd) s =
        if -2147483648 ≤ sum ∧ sum ≤ 2147483647 then .next ((s.setReg rd (BitVec.ofInt 32 sum)).retire .other)
        else .next (takeException .ov s)) ∧
    (sum = (s.reg rs).toInt - (s.reg rt).toInt →
      exec (.sub rs rt rd) s =
        if -2147483648 ≤ sum ∧ sum ≤ 2147483647 then .next ((s.setReg rd (BitVec.ofInt 32 sum)).retire .other)
        else .next (takeException .ov s)) ∧
    (sum = (s.reg rs).toInt + imm.toInt →
      exec (.addi rs rt imm) s =
        if -2147483648 ≤ sum ∧ sum ≤ 2147483647 then .next ((s.setReg rt (BitVec.ofInt 32 sum)).retire .other)
        else .next (takeException .ov s))

/-- In every state each completes; the next state is the old one with the result in rd and pc moved on. ADDU and SUBU wrap modulo 2^32, SLT compares signed, SLTU unsigned. -/
def Obligations.RegisterResults : Prop :=
  ∀ (s : State) (rs rt rd : Reg),
    exec (.addu rs rt rd) s =
      .next ((s.setReg rd (BitVec.ofInt 32 ((s.reg rs).toInt + (s.reg rt).toInt))).retire .other) ∧
    exec (.subu rs rt rd) s =
      .next ((s.setReg rd (BitVec.ofInt 32 ((s.reg rs).toInt - (s.reg rt).toInt))).retire .other) ∧
    exec (.slt rs rt rd) s =
      .next ((s.setReg rd (if (s.reg rs).toInt < (s.reg rt).toInt then 1 else 0)).retire .other) ∧
    exec (.sltu rs rt rd) s =
      .next ((s.setReg rd (if (s.reg rs).toNat < (s.reg rt).toNat then 1 else 0)).retire .other) ∧
    exec (.and rs rt rd) s = .next ((s.setReg rd (s.reg rs &&& s.reg rt)).retire .other) ∧
    exec (.or rs rt rd) s = .next ((s.setReg rd (s.reg rs ||| s.reg rt)).retire .other) ∧
    exec (.xor rs rt rd) s = .next ((s.setReg rd (s.reg rs ^^^ s.reg rt)).retire .other) ∧
    exec (.nor rs rt rd) s = .next ((s.setReg rd (~~~s.reg rs &&& ~~~s.reg rt)).retire .other)

/-- A left shift multiplies by 2^n modulo 2^32, a logical right shift divides the unsigned value by 2^n, an arithmetic right shift divides the signed value by 2^n rounding toward minus infinity; n is sa, or x[rs] modulo 32. -/
def Obligations.ShiftResults : Prop :=
  ∀ (s : State) (rs rt rd : Reg) (sa : BitVec 5) (n : Nat), n = (s.reg rs).toNat % 32 →
    exec (.sll rt rd sa) s = .next ((s.setReg rd (BitVec.ofNat 32 ((s.reg rt).toNat * 2 ^ sa.toNat))).retire .other) ∧
    exec (.srl rt rd sa) s = .next ((s.setReg rd (BitVec.ofNat 32 ((s.reg rt).toNat / 2 ^ sa.toNat))).retire .other) ∧
    exec (.sra rt rd sa) s = .next ((s.setReg rd (BitVec.ofInt 32 ((s.reg rt).toInt / 2 ^ sa.toNat))).retire .other) ∧
    exec (.sllv rs rt rd) s = .next ((s.setReg rd (BitVec.ofNat 32 ((s.reg rt).toNat * 2 ^ n))).retire .other) ∧
    exec (.srlv rs rt rd) s = .next ((s.setReg rd (BitVec.ofNat 32 ((s.reg rt).toNat / 2 ^ n))).retire .other) ∧
    exec (.srav rs rt rd) s = .next ((s.setReg rd (BitVec.ofInt 32 ((s.reg rt).toInt / 2 ^ n))).retire .other)

/-- Each completes in every state and nothing but HI, LO and pc changes. HI ## LO becomes the exact signed (MULT) or unsigned (MULTU) product; for MADD, MADDU, MSUB and MSUBU the old HI ## LO plus or minus the signed or unsigned product, modulo 2^64; bits 63:32 go to HI and bits 31:0 to LO. MFHI and MFLO write HI and LO to rd; MTHI writes HI and keeps LO, MTLO writes LO and keeps HI. -/
def Obligations.HiLoResults : Prop :=
  ∀ (s : State) (rs rt : Reg),
    (∃ p : BitVec 64, p.toInt = (s.reg rs).toInt * (s.reg rt).toInt ∧
      exec (.mult rs rt) s = .next ({ s with hi := p.extractLsb' 32 32, lo := p.extractLsb' 0 32 }.retire .other)) ∧
    (∃ p : BitVec 64, p.toNat = (s.reg rs).toNat * (s.reg rt).toNat ∧
      exec (.multu rs rt) s = .next ({ s with hi := p.extractLsb' 32 32, lo := p.extractLsb' 0 32 }.retire .other)) ∧
    (∃ p : BitVec 64, p = BitVec.ofInt 64 ((s.hi ++ s.lo).toNat + (s.reg rs).toInt * (s.reg rt).toInt) ∧
      exec (.madd rs rt) s = .next ({ s with hi := p.extractLsb' 32 32, lo := p.extractLsb' 0 32 }.retire .other)) ∧
    (∃ p : BitVec 64, p = BitVec.ofInt 64 ((s.hi ++ s.lo).toNat + (s.reg rs).toNat * (s.reg rt).toNat) ∧
      exec (.maddu rs rt) s = .next ({ s with hi := p.extractLsb' 32 32, lo := p.extractLsb' 0 32 }.retire .other)) ∧
    (∃ p : BitVec 64, p = BitVec.ofInt 64 ((s.hi ++ s.lo).toNat - (s.reg rs).toInt * (s.reg rt).toInt) ∧
      exec (.msub rs rt) s = .next ({ s with hi := p.extractLsb' 32 32, lo := p.extractLsb' 0 32 }.retire .other)) ∧
    (∃ p : BitVec 64, p = BitVec.ofInt 64 ((s.hi ++ s.lo).toNat - (s.reg rs).toNat * (s.reg rt).toNat) ∧
      exec (.msubu rs rt) s = .next ({ s with hi := p.extractLsb' 32 32, lo := p.extractLsb' 0 32 }.retire .other)) ∧
    exec (.mfhi rs) s = .next ((s.setReg rs s.hi).retire .other) ∧
    exec (.mflo rs) s = .next ((s.setReg rs s.lo).retire .other) ∧
    exec (.mthi rs) s = .next ({ s with hi := s.reg rs }.retire .other) ∧
    exec (.mtlo rs) s = .next ({ s with lo := s.reg rs }.retire .other)

/-- For a non-zero divisor (and not -2^31 / -1) DIV completes with n = q * d + r, |r| < |d| and r of the sign of n (GK6, log entry 7); DIVU for a non-zero divisor with n = q * d + r and r < d. In the other cases both complete with HI and LO free values (log entry 12). -/
def Obligations.DivideResults : Prop :=
  ∀ (s : State) (rs rt : Reg),
    ((s.reg rt ≠ 0 ∧ ¬(s.reg rs = 0x80000000#32 ∧ s.reg rt = 0xFFFFFFFF#32)) →
      ∃ q r : Word, exec (.div rs rt) s = .next ({ s with hi := r, lo := q }.retire .other) ∧
        (s.reg rs).toInt = q.toInt * (s.reg rt).toInt + r.toInt ∧ r.toInt.natAbs < (s.reg rt).toInt.natAbs ∧
        (0 ≤ (s.reg rs).toInt → 0 ≤ r.toInt) ∧ ((s.reg rs).toInt ≤ 0 → r.toInt ≤ 0)) ∧
    ((s.reg rt = 0 ∨ s.reg rs = 0x80000000#32 ∧ s.reg rt = 0xFFFFFFFF#32) →
      exec (.div rs rt) s = .next (({ s with hi := s.freeWord, lo := s.freeWord2 }.drawn 2).retire .other)) ∧
    (s.reg rt ≠ 0 →
      ∃ q r : Word, exec (.divu rs rt) s = .next ({ s with hi := r, lo := q }.retire .other) ∧
        (s.reg rs).toNat = q.toNat * (s.reg rt).toNat + r.toNat ∧ r.toNat < (s.reg rt).toNat) ∧
    (s.reg rt = 0 →
      exec (.divu rs rt) s = .next (({ s with hi := s.freeWord, lo := s.freeWord2 }.drawn 2).retire .other))

/-- Results go to HI and LO only. MULT, MULTU, DIV, DIVU, MADD, MADDU, MSUB and MSUBU complete in every state, without an exception; no general register, LLbit, CP0 register, coprocessor or byte of memory changes. Their encodings have rd and sa zero. An instruction that takes the overflow exception (Ov), in any state, is ADD, ADDI or SUB. -/
def Obligations.MultiplyDivideFrame : Prop :=
  (∀ (s : State) (rs rt : Reg) (i : Instr),
    i ∈ [.mult rs rt, .multu rs rt, .div rs rt, .divu rs rt, .madd rs rt, .maddu rs rt, .msub rs rt, .msubu rs rt] →
    ∃ t, exec i s = .next t ∧ t.entered = false ∧ SameRegs s t ∧ t.llBit = s.llBit ∧ t.cp0 = s.cp0 ∧ t.cop1 = s.cop1 ∧
      t.cop2 = s.cop2 ∧ t.cop3 = s.cop3 ∧ t.env = s.env ∧ SameMemory s t ∧ SameBytes s t ∧
      (encode i).extractLsb' 6 10 = 0) ∧
    (∀ (i : Instr) (s : State), exec i s = .next (takeException .ov s) →
      (∃ rs rt rd, i = .add rs rt rd ∨ i = .sub rs rt rd) ∨ ∃ rs rt imm, i = .addi rs rt imm)

/-- MAX and MIN write the signed maximum and minimum; MOVN writes x[rs] to rd exactly when x[rt] is not 0 and MOVZ exactly when it is 0, and otherwise the registers are unchanged. All complete in every state. -/
def Obligations.SelectAndConditionalMoves : Prop :=
  ∀ (s : State) (rs rt rd : Reg),
    exec (.max rs rt rd) s =
      .next ((s.setReg rd (BitVec.ofInt 32 (Max.max (s.reg rs).toInt (s.reg rt).toInt))).retire .other) ∧
    exec (.min rs rt rd) s =
      .next ((s.setReg rd (BitVec.ofInt 32 (Min.min (s.reg rs).toInt (s.reg rt).toInt))).retire .other) ∧
    (s.reg rt ≠ 0 → exec (.movn rs rt rd) s = .next ((s.setReg rd (s.reg rs)).retire .other)) ∧
    (s.reg rt = 0 → ∃ t, exec (.movn rs rt rd) s = .next t ∧ SameRegs s t ∧ t.pc = s.npc) ∧
    (s.reg rt = 0 → exec (.movz rs rt rd) s = .next ((s.setReg rd (s.reg rs)).retire .other)) ∧
    (s.reg rt ≠ 0 → ∃ t, exec (.movz rs rt rd) s = .next t ∧ SameRegs s t ∧ t.pc = s.npc)

/-- EXT writes to rt the size bits of rs from pos on, right-justified and zero-extended; INS replaces bits pos to msb of rt by the low bits of rs. Where pos + size > 32 (EXT) or msb < pos (INS) rt receives a free value (log entry 12). -/
def Obligations.BitFieldResults : Prop :=
  ∀ (s : State) (rs rt : Reg) (last pos : BitVec 5),
    (pos.toNat + (last.toNat + 1) ≤ 32 →
      ∃ v : Word, exec (.ext rs rt last pos) s = .next ((s.setReg rt v).retire .other) ∧
        ∀ i, i < 32 → v.getLsbD i = (decide (i ≤ last.toNat) && (s.reg rs).getLsbD (pos.toNat + i))) ∧
    (32 < pos.toNat + (last.toNat + 1) →
      exec (.ext rs rt last pos) s = .next (((s.drawn 1).setReg rt s.freeWord).retire .other)) ∧
    (pos.toNat ≤ last.toNat →
      ∃ v : Word, exec (.ins rs rt last pos) s = .next ((s.setReg rt v).retire .other) ∧
        ∀ i, i < 32 → v.getLsbD i =
          if pos.toNat ≤ i ∧ i ≤ last.toNat then (s.reg rs).getLsbD (i - pos.toNat) else (s.reg rt).getLsbD i) ∧
    (last.toNat < pos.toNat →
      exec (.ins rs rt last pos) s = .next (((s.drawn 1).setReg rt s.freeWord).retire .other))

/-- All complete in every state and change nothing else but pc. Bit i of the result is, of x[rt]: bit min(i, 7) for SEB, min(i, 15) for SEH, (i + n) mod 32 for a rotation by n, the bit of the other byte of the halfword for WSBH, of the mirrored byte for WSBW, bit 31 - i for BITREV. CLZ writes the n in 0..32 such that the n top bits of x[rs] are 0 and the next one, if there is one, is 1; CLO the same for 1 and 0. -/
def Obligations.BitPermutationsAndCounts : Prop :=
  ∀ (s : State) (rs rt rd : Reg) (sa : BitVec 5),
    (∃ v : Word, exec (.seb rt rd) s = .next ((s.setReg rd v).retire .other) ∧
      ∀ i, i < 32 → v.getLsbD i = (s.reg rt).getLsbD (Min.min i 7)) ∧
    (∃ v : Word, exec (.seh rt rd) s = .next ((s.setReg rd v).retire .other) ∧
      ∀ i, i < 32 → v.getLsbD i = (s.reg rt).getLsbD (Min.min i 15)) ∧
    (∃ v : Word, exec (.rotr rt rd sa) s = .next ((s.setReg rd v).retire .other) ∧
      ∀ i, i < 32 → v.getLsbD i = (s.reg rt).getLsbD ((i + sa.toNat) % 32)) ∧
    (∃ v : Word, exec (.rotrv rs rt rd) s = .next ((s.setReg rd v).retire .other) ∧
      ∀ i, i < 32 → v.getLsbD i = (s.reg rt).getLsbD ((i + (s.reg rs).toNat) % 32)) ∧
    (∃ v : Word, exec (.wsbh rt rd) s = .next ((s.setReg rd v).retire .other) ∧
      ∀ i, i < 32 → v.getLsbD i = (s.reg rt).getLsbD (if i / 8 % 2 = 0 then i + 8 else i - 8)) ∧
    (∃ v : Word, exec (.wsbw rt rd) s = .next ((s.setReg rd v).retire .other) ∧
      ∀ i, i < 32 → v.getLsbD i = (s.reg rt).getLsbD (8 * (3 - i / 8) + i % 8)) ∧
    (∃ v : Word, exec (.bitrev rt rd) s = .next ((s.setReg rd v).retire .other) ∧
      ∀ i, i < 32 → v.getLsbD i = (s.reg rt).getLsbD (31 - i)) ∧
    (∃ n : Nat, n ≤ 32 ∧ exec (.clz rs rd) s = .next ((s.setReg rd (BitVec.ofNat 32 n)).retire .other) ∧
      (∀ i, 32 - n ≤ i → i < 32 → (s.reg rs).getLsbD i = false) ∧ (n < 32 → (s.reg rs).getLsbD (31 - n) = true)) ∧
    (∃ n : Nat, n ≤ 32 ∧ exec (.clo rs rd) s = .next ((s.setReg rd (BitVec.ofNat 32 n)).retire .other) ∧
      (∀ i, 32 - n ≤ i → i < 32 → (s.reg rs).getLsbD i = true) ∧ (n < 32 → (s.reg rs).getLsbD (31 - n) = false))

/-- J and JAL go to target * 4 within the 256 MB region of A + 4 (GK3, log entry 3), JR and JALR to x[rs] read before any write; JAL writes A + 8 to r31 and JALR to rd. Everything else is unchanged. What State.transfer does to pc, npc and inDelaySlot is stated in TransferFrame. -/
def Obligations.JumpResults : Prop :=
  ∀ (s : State) (target : BitVec 26) (rs rd : Reg) (v : Word), s.inDelaySlot = false →
    v = BitVec.ofNat 32 ((s.pc + 4).toNat / 0x10000000 * 0x10000000 + target.toNat * 4) →
    exec (.j target) s = .next (s.transfer v) ∧
    exec (.jal target) s = .next ((s.setReg 31#5 (s.pc + 8)).transfer v) ∧
    exec (.jr rs) s = .next (s.transfer (s.reg rs)) ∧
    exec (.jalr rs rd) s = .next ((s.setReg rd (s.pc + 8)).transfer (s.reg rs))

/-- Outside a delay slot each completes. Taken, the delay slot runs and then A + 4 + 4 * offset (GK3, log entry 3). Not taken, an ordinary branch goes to the delay slot and then A + 8, and a branch-likely skips the instruction at A + 4 and goes to A + 8. Nothing else changes. What State.transfer, fallThrough and nullify do to pc, npc and inDelaySlot is stated in TransferFrame. -/
def Obligations.BranchResults : Prop :=
  ∀ (s : State) (rs rt : Reg) (off : Imm16), s.inDelaySlot = false →
    BranchResult (s.reg rs = s.reg rt) off s (exec (.beq rs rt off) s) ∧
    BranchResult (s.reg rs ≠ s.reg rt) off s (exec (.bne rs rt off) s) ∧
    BranchResult ((s.reg rs).toInt ≤ 0) off s (exec (.blez rs off) s) ∧
    BranchResult (0 < (s.reg rs).toInt) off s (exec (.bgtz rs off) s) ∧
    BranchResult ((s.reg rs).toInt < 0) off s (exec (.bltz rs off) s) ∧
    BranchResult (0 ≤ (s.reg rs).toInt) off s (exec (.bgez rs off) s) ∧
    LikelyResult (s.reg rs = s.reg rt) off s (exec (.beql rs rt off) s) ∧
    LikelyResult (s.reg rs ≠ s.reg rt) off s (exec (.bnel rs rt off) s) ∧
    LikelyResult ((s.reg rs).toInt ≤ 0) off s (exec (.blezl rs off) s) ∧
    LikelyResult (0 < (s.reg rs).toInt) off s (exec (.bgtzl rs off) s) ∧
    LikelyResult ((s.reg rs).toInt < 0) off s (exec (.bltzl rs off) s) ∧
    LikelyResult (0 ≤ (s.reg rs).toInt) off s (exec (.bgezl rs off) s)

/-- Taken, r31 receives A + 8 and the branch is made, to A + 4 + 4 * offset (GK3, log entry 3); not taken, r31 holds either its old value or A + 8, freely (D24, log entry 12), and control goes on (the likely forms skip the slot). -/
def Obligations.AndLinkResults : Prop :=
  ∀ (s : State) (rs : Reg) (off : Imm16) (v : Word), s.inDelaySlot = false →
    v = BitVec.ofInt 32 (s.pc.toNat + 4 + 4 * off.toInt) →
    ((s.reg rs).toInt < 0 →
      exec (.bltzal rs off) s = .next ((s.setReg 31#5 (s.pc + 8)).transfer v) ∧
      exec (.bltzall rs off) s = .next ((s.setReg 31#5 (s.pc + 8)).transfer v) ∧
      ∃ r31, (r31 = s.reg 31#5 ∨ r31 = s.pc + 8) ∧
        exec (.bgezal rs off) s = .next (((s.drawn 1).setReg 31#5 r31).fallThrough) ∧
        exec (.bgezall rs off) s = .next (((s.drawn 1).setReg 31#5 r31).nullify)) ∧
    (0 ≤ (s.reg rs).toInt →
      exec (.bgezal rs off) s = .next ((s.setReg 31#5 (s.pc + 8)).transfer v) ∧
      exec (.bgezall rs off) s = .next ((s.setReg 31#5 (s.pc + 8)).transfer v) ∧
      ∃ r31, (r31 = s.reg 31#5 ∨ r31 = s.pc + 8) ∧
        exec (.bltzal rs off) s = .next (((s.drawn 1).setReg 31#5 r31).fallThrough) ∧
        exec (.bltzall rs off) s = .next (((s.drawn 1).setReg 31#5 r31).nullify))

/-- Outside a delay slot every jump and branch of the core completes without an exception and changes no HI, LO, LLbit, CP0 register, coprocessor or byte of memory, and no general register but its link register. In a delay slot each is refused (the spec's decision D13, log entry 23). Less than zero means bit 31 set; greater than zero means bit 31 clear and the value non-zero. A transfer runs the delay slot next and then its target; a branch not taken runs the delay slot next and then the instruction after it; a branch-likely not taken skips the slot; any other instruction goes to npc, outside a delay slot; none of these changes anything else. -/
def Obligations.TransferFrame : Prop :=
  (∀ (i : Instr) (s : State), i.isTransfer = true →
    (s.inDelaySlot = true → exec i s = .refused .transferInDelaySlot) ∧
    (s.inDelaySlot = false → ∃ t, exec i s = .next t ∧ t.entered = false ∧ SameSpecial s t ∧ SameMemory s t ∧
      SameBytes s t ∧ (∀ r, i.destination ≠ some r → t.reg r = s.reg r)) ∧
    (∀ v : Word, (isNegative v = true ↔ v.getLsbD 31 = true) ∧
      (isPositive v = true ↔ v.getLsbD 31 = false ∧ v ≠ 0))) ∧
    (∀ (s t : State) (v : Word),
      (t = s.transfer v → t.pc = s.npc ∧ t.npc = v ∧ t.inDelaySlot = true) ∧
      (t = s.fallThrough → t.pc = s.npc ∧ t.npc = s.npc + 4 ∧ t.inDelaySlot = true) ∧
      (t = s.nullify → t.pc = s.npc + 4 ∧ t.npc = s.npc + 8 ∧ t.inDelaySlot = false) ∧
      (∀ k, t = s.retire k → t.pc = s.npc ∧ t.npc = s.npc + 4 ∧ t.inDelaySlot = false) ∧
      (∀ k, t = s.transfer v ∨ t = s.fallThrough ∨ t = s.nullify ∨ t = s.retire k →
        SameRegs s t ∧ SameSpecial s t ∧ SameMemory s t ∧ SameBytes s t))

/-- SYSCALL takes Sys (code 8) and BREAK takes Bp (code 9) in every mode; the code field has no effect. -/
def Obligations.SystemCallAndBreak : Prop :=
  ∀ (s : State) (code : BitVec 20),
    exec (.syscall code) s = .next (takeException .sys s) ∧ exec (.brk code) s = .next (takeException .bp s) ∧
    (takeException .sys s).cp0.cause.excCode = 8 ∧ (takeException .bp s).cp0.cause.excCode = 9

/-- SYNC completes in every state: both buffers are then empty, and every byte of memory that neither was about to write, the caches and all registers are unchanged. In a state with the invariant, of the bytes that lie in RAM, each byte of each buffered store is in memory unless a newer buffered store covers it, and each byte of the writeback line unless a buffered store covers it: that the line goes before the stores is log entry 15's reading of R342, whose operation lists the line first. A byte where there is no RAM is as it was (log entry 10). -/
def Obligations.SyncDrainsBuffers : Prop :=
  ∀ s : State, ∃ t, exec .sync s = .next t ∧ t.entered = false ∧ t.pc = s.npc ∧ t.writeback = none ∧ t.stores = [] ∧
    t.dcache = s.dcache ∧ t.icache = s.icache ∧ SameRegs s t ∧ SameSpecial s t ∧
    (∀ a, a ∉ s.inFlight → t.mem.read a = s.mem.read a) ∧
    (s.Inv →
      (∀ es e fs, s.stores = es ++ e :: fs → ∀ k (h : k < e.bytes.length), s.writableAt (physical e.va + k) = true →
        physical e.va + k ∉ fs.flatMap NcStore.physicalBytes → t.mem.read (physical e.va + k) = e.bytes[k]) ∧
      (∀ w, s.writeback = some w → ∀ k (h : k < 64), s.writableAt (physical w.va + k) = true →
        physical w.va + k ∉ s.stores.flatMap NcStore.physicalBytes → t.mem.read (physical w.va + k) = w.data[k]) ∧
      (∀ a, s.writableAt a = false → t.mem.read a = s.mem.read a))

/-- Where the address is aligned and permitted and no bus error stands in the way (in a non-cached segment, at the bytes of the load itself: log entry 17), each load completes: rt receives the bytes that the data cache, the write buffers or memory hold for the address, extended as the instruction says; beside rt and pc only the data cache, the writeback buffer and memory (by a fill or an eviction) may change. In a non-cached segment none of these changes. In a cached one, at every address that the load permits, a load that hits changes in the caches only the LRU bit of its set, which points to the other way unless Lock is 1; one that misses fills the way that R111 names with the line from memory, a valid dirty victim going to the writeback buffer (DataRead; when the writeback buffer empties is log entry 15's, and which of two invalid ways is filled is log entry 16's). -/
def Obligations.LoadResults : Prop :=
  ∀ (s : State) (base rt : Reg) (off : Imm16) (va : Word), va = s.effectiveAddress base off →
    (Permitted s va 1 → s.loadFails va 1 = false →
      ∃ u, OnlyDataSide s u ∧ u.stores = s.stores ∧
        exec (.lb base rt off) s = .next ((u.setReg rt ((s.byteAt va).signExtend 32)).retire .other) ∧
        exec (.lbu base rt off) s = .next ((u.setReg rt ((s.byteAt va).setWidth 32)).retire .other)) ∧
    (Permitted s va 2 → s.loadFails va 2 = false →
      ∃ u h, OnlyDataSide s u ∧ u.stores = s.stores ∧ h = (assemble s.bigEndian (s.bytesAt va 2)).setWidth 16 ∧
        exec (.lh base rt off) s = .next ((u.setReg rt (BitVec.signExtend 32 (h : BitVec 16))).retire .other) ∧
        exec (.lhu base rt off) s = .next ((u.setReg rt (BitVec.setWidth 32 (h : BitVec 16))).retire .other)) ∧
    (Permitted s va 4 → s.loadFails va 4 = false →
      ∃ u, OnlyDataSide s u ∧ u.stores = s.stores ∧
        exec (.lw base rt off) s =
          .next ((u.setReg rt (assemble s.bigEndian (s.bytesAt va 4))).retire .other)) ∧
    (∀ i n, (i, n) ∈ [(.lb base rt off, 1), (.lbu base rt off, 1), (.lh base rt off, 2), (.lhu base rt off, 2),
        (.lw base rt off, 4)] → Permitted s va n → s.loadFails va n = false →
      ∃ t, exec i s = .next t ∧ DataRead va s t)

/-- With b the low two bits of the address: in little-endian order LWL puts bytes 0..b of the word into the high end of rt and LWR bytes b..3 into the low end; in big-endian order (GK5, log entry 5) LWL takes the bytes from the address to the end of the word and LWR those from its start to the address. The other bytes of rt are kept. No alignment is asked for. Each completes where no bus error stands in the way of the bytes that it itself takes (leftPart, rightPart), whatever the bus does at the other bytes of the word (log entry 17). The data cache is touched or filled as by a load of one byte at that address (DataRead; when the writeback buffer empties is log entry 15's, and which of two invalid ways is filled is log entry 16's). -/
def Obligations.UnalignedLoadResults : Prop :=
  ∀ (s : State) (base rt : Reg) (off : Imm16) (va : Word) (b : Nat), va = s.effectiveAddress base off →
    b = va.toNat % 4 → Permitted s va 1 →
    (s.loadFails (leftPart s.bigEndian va).start (leftPart s.bigEndian va).count = false →
      ∃ l u t, OnlyDataSide s u ∧ u.stores = s.stores ∧ t = (u.setReg rt l).retire .other ∧
        exec (.lwl base rt off) s = .next t ∧ DataRead va s t ∧
        (s.bigEndian = false → ∀ k, k < 4 → l.extractLsb' (8 * k) 8 =
          (if 3 - b ≤ k then s.byteAt (wordAddress va + BitVec.ofNat 32 (k + b - 3))
           else (s.reg rt).extractLsb' (8 * k) 8)) ∧
        (s.bigEndian = true → ∀ k, k < 4 → l.extractLsb' (8 * k) 8 =
          (if b ≤ k then s.byteAt (wordAddress va + BitVec.ofNat 32 (b + 3 - k))
           else (s.reg rt).extractLsb' (8 * k) 8))) ∧
    (s.loadFails (rightPart s.bigEndian va).start (rightPart s.bigEndian va).count = false →
      ∃ r u t, OnlyDataSide s u ∧ u.stores = s.stores ∧ t = (u.setReg rt r).retire .other ∧
        exec (.lwr base rt off) s = .next t ∧ DataRead va s t ∧
        (s.bigEndian = false → ∀ k, k < 4 → r.extractLsb' (8 * k) 8 =
          (if k + b < 4 then s.byteAt (wordAddress va + BitVec.ofNat 32 (k + b))
           else (s.reg rt).extractLsb' (8 * k) 8)) ∧
        (s.bigEndian = true → ∀ k, k < 4 → r.extractLsb' (8 * k) 8 =
          (if k ≤ b then s.byteAt (wordAddress va + BitVec.ofNat 32 (b - k))
           else (s.reg rt).extractLsb' (8 * k) 8)))

/-- Where the address is aligned and permitted and no bus error stands in the way of a line fill, each store completes and changes nothing but pc and the data side; each stored byte, laid out in the byte order in force, is what its address then reads as. At every address that the store permits: in a cached segment the line is then in the cache, valid and dirty, with the bytes written over the line that hit, or over the line from memory in the way that a load would fill; the LRU bit points to the other way unless Lock is 1; on a hit neither memory nor the writeback buffer changes. In a non-cached segment the address and the bytes become the newest entry of the non-cached write buffer; where it has room memory is unchanged, and where it holds 16 stores the oldest leaves it for memory (DataWritten; which of two invalid ways is filled is log entry 16's choice, and when the writeback buffer empties, that a store is one entry of the 16 whatever its width, and that a full non-cached buffer lets its oldest store go to memory are log entry 15's, since R116 and R126 give no order and do not say what a full buffer does). -/
def Obligations.StoreResults : Prop :=
  ∀ (s : State) (base rt : Reg) (off : Imm16) (va : Word), va = s.effectiveAddress base off →
    s.storeFails va = false →
    (Permitted s va 1 → ∃ u, OnlyDataSide s u ∧ exec (.sb base rt off) s = .next (u.retire .other) ∧
      u.byteAt va = (s.reg rt).extractLsb' 0 8) ∧
    (Permitted s va 2 → ∃ u, OnlyDataSide s u ∧ exec (.sh base rt off) s = .next (u.retire .other) ∧
      u.bytesAt va 2 = layOut s.bigEndian 2 (s.reg rt)) ∧
    (Permitted s va 4 → ∃ u, OnlyDataSide s u ∧ exec (.sw base rt off) s = .next (u.retire .other) ∧
      u.bytesAt va 4 = layOut s.bigEndian 4 (s.reg rt)) ∧
    (∀ i n, (i, n) ∈ [(.sb base rt off, 1), (.sh base rt off, 2), (.sw base rt off, 4)] → Permitted s va n →
      ∃ t, exec i s = .next t ∧ DataWritten va (layOut s.bigEndian n (s.reg rt)) s t)

/-- With b the low two bits of the address: in little-endian order SWL stores the high b + 1 bytes of rt to bytes 0..b of the word and SWR the low 4 - b bytes to bytes b..3; in big-endian order (GK5, log entry 5) SWL stores from the address to the end of the word and SWR from its start to the address. No alignment is asked for. Those bytes go, as one store from the first of their addresses, to the way that hits or that is filled, or to one entry of the non-cached write buffer (DataWritten; which of two invalid ways is filled is log entry 16's choice, and when the writeback buffer empties, that a store is one entry of the 16 whatever its width, and that a full non-cached buffer lets its oldest store go to memory are log entry 15's, since R116 and R126 give no order and do not say what a full buffer does). -/
def Obligations.UnalignedStoreResults : Prop :=
  ∀ (s : State) (base rt : Reg) (off : Imm16) (va : Word) (b : Nat), va = s.effectiveAddress base off →
    b = va.toNat % 4 → Permitted s va 1 → s.storeFails va = false →
    ∃ u w, OnlyDataSide s u ∧ OnlyDataSide s w ∧
      exec (.swl base rt off) s = .next (u.retire .other) ∧ exec (.swr base rt off) s = .next (w.retire .other) ∧
      (s.bigEndian = false →
        DataWritten (wordAddress va) (layOut false (b + 1) (s.reg rt >>> (8 * (3 - b)))) s (u.retire .other) ∧
        DataWritten va (layOut false (4 - b) (s.reg rt)) s (w.retire .other) ∧
        (∀ k, k ≤ b → u.byteAt (wordAddress va + BitVec.ofNat 32 k) = (s.reg rt).extractLsb' (8 * (3 - b + k)) 8) ∧
        (∀ k, b ≤ k → k < 4 →
          w.byteAt (wordAddress va + BitVec.ofNat 32 k) = (s.reg rt).extractLsb' (8 * (k - b)) 8)) ∧
      (s.bigEndian = true →
        DataWritten va (layOut true (4 - b) (s.reg rt >>> (8 * b))) s (u.retire .other) ∧
        DataWritten (wordAddress va) (layOut true (b + 1) (s.reg rt)) s (w.retire .other) ∧
        (∀ k, b ≤ k → k < 4 →
          u.byteAt (wordAddress va + BitVec.ofNat 32 k) = (s.reg rt).extractLsb' (8 * (3 - (k - b))) 8) ∧
        (∀ k, k ≤ b → w.byteAt (wordAddress va + BitVec.ofNat 32 k) = (s.reg rt).extractLsb' (8 * (b - k)) 8))

/-- LL completes as LW with LLbit set. SC with LLbit = 1 completes as SW with 1 in rt, with LLbit = 0 it changes no memory and gives 0 (its address is checked in both cases, GK14, log entry 25); LLbit is then a free value (D14, log entry 12). The data cache is touched or filled, and the non-cached write buffer receives its entry, as for LW and SW: when the buffers empty, what a full buffer does and that a store is one entry of it is log entry 15's choice, and which of two invalid ways is filled is log entry 16's. -/
def Obligations.LinkedPairResults : Prop :=
  ∀ (s : State) (base rt : Reg) (off : Imm16) (va : Word), va = s.effectiveAddress base off → Permitted s va 4 →
    (s.loadFails va 4 = false → (∃ t, exec (.ll base rt off) s = .next t ∧ DataRead va s t) ∧
      ∃ u, OnlyDataSide s u ∧ u.stores = s.stores ∧
        exec (.ll base rt off) s =
          .next (({ u with llBit := true }.setReg rt (assemble s.bigEndian (s.bytesAt va 4))).retire .other)) ∧
    (s.llBit = true → s.storeFails va = false →
      (∃ t, exec (.sc base rt off) s = .next t ∧ DataWritten va (layOut s.bigEndian 4 (s.reg rt)) s t) ∧
      ∃ u, OnlyDataSide s u ∧ u.bytesAt va 4 = layOut s.bigEndian 4 (s.reg rt) ∧
        exec (.sc base rt off) s = .next (({ u.drawn 1 with llBit := s.freeBit }.setReg rt 1).retire .other)) ∧
    (s.llBit = false →
      exec (.sc base rt off) s = .next (({ s.drawn 1 with llBit := s.freeBit }.setReg rt 0).retire .other))

/-- In every mode, LH, LHU, LW, LL and LWCz (z = 1, 2 usable) at a misaligned address, or a load at an address the mode may not reference, take AdEL; SH, SW, SC, SWCz and the other stores take AdES, SC whatever LLbit holds (GK14, log entry 25). BadVAddr is the full effective address. A permitted load whose read fails takes DBE: in a cached segment when the line is not there and its fill fails, in a non-cached one when the bus fails for its own bytes, also where the non-cached write buffer holds them all (log entry 15), and not for the other bytes of their word (log entry 17) (for LWL and LWR, the part of the word that they load). A permitted store (SC with LLbit = 1) takes DBE when it is cached, misses, and its fill fails; a non-cached store never does. BadVAddr is then unchanged. That SWC1 and SWC2 take DBE when their line fill fails follows R104, to which R354's operation sends them "as SW", and R422, R433 and N12, over R354's own line "No bus-error exception (20_memory.md rule R107)" (log entry 35). -/
def Obligations.AccessExceptions : Prop :=
  ∀ (s : State) (base rt : Reg) (off : Imm16) (va : Word) (m : Mode), va = s.effectiveAddress base off →
    s.mode = some m →
    (va.toNat % 2 = 1 ∨ allowedAddress m va = false →
      exec (.lh base rt off) s = .next (takeException (.adEL va) s) ∧
      exec (.lhu base rt off) s = .next (takeException (.adEL va) s) ∧
      exec (.sh base rt off) s = .next (takeException (.adES va) s)) ∧
    (va.toNat % 4 ≠ 0 ∨ allowedAddress m va = false →
      exec (.lw base rt off) s = .next (takeException (.adEL va) s) ∧
      exec (.ll base rt off) s = .next (takeException (.adEL va) s) ∧
      exec (.sw base rt off) s = .next (takeException (.adES va) s) ∧
      exec (.sc base rt off) s = .next (takeException (.adES va) s) ∧
      (s.cp0.status.cu.getLsbD 1 = true → exec (.lwc1 base rt off) s = .next (takeException (.adEL va) s) ∧
        exec (.swc1 base rt off) s = .next (takeException (.adES va) s)) ∧
      (s.cp0.status.cu.getLsbD 2 = true → exec (.lwc2 base rt off) s = .next (takeException (.adEL va) s) ∧
        exec (.swc2 base rt off) s = .next (takeException (.adES va) s))) ∧
    (allowedAddress m va = false →
      exec (.lb base rt off) s = .next (takeException (.adEL va) s) ∧
      exec (.lbu base rt off) s = .next (takeException (.adEL va) s) ∧
      exec (.lwl base rt off) s = .next (takeException (.adEL va) s) ∧
      exec (.lwr base rt off) s = .next (takeException (.adEL va) s) ∧
      exec (.sb base rt off) s = .next (takeException (.adES va) s) ∧
      exec (.swl base rt off) s = .next (takeException (.adES va) s) ∧
      exec (.swr base rt off) s = .next (takeException (.adES va) s)) ∧
    (takeException (.adEL va) s).cp0.badVAddr = va ∧ (takeException (.adES va) s).cp0.badVAddr = va ∧
    (Permitted s va 1 →
      (s.loadFails va 1 = true → exec (.lb base rt off) s = .next (takeException .dbe s) ∧
        exec (.lbu base rt off) s = .next (takeException .dbe s)) ∧
      (s.loadFails (leftPart s.bigEndian va).start (leftPart s.bigEndian va).count = true →
        exec (.lwl base rt off) s = .next (takeException .dbe s)) ∧
      (s.loadFails (rightPart s.bigEndian va).start (rightPart s.bigEndian va).count = true →
        exec (.lwr base rt off) s = .next (takeException .dbe s)) ∧
      (s.storeFails va = true → exec (.sb base rt off) s = .next (takeException .dbe s) ∧
        exec (.swl base rt off) s = .next (takeException .dbe s) ∧
        exec (.swr base rt off) s = .next (takeException .dbe s))) ∧
    (Permitted s va 2 →
      (s.loadFails va 2 = true → exec (.lh base rt off) s = .next (takeException .dbe s) ∧
        exec (.lhu base rt off) s = .next (takeException .dbe s)) ∧
      (s.storeFails va = true → exec (.sh base rt off) s = .next (takeException .dbe s))) ∧
    (Permitted s va 4 →
      (s.loadFails va 4 = true → exec (.lw base rt off) s = .next (takeException .dbe s) ∧
        exec (.ll base rt off) s = .next (takeException .dbe s) ∧
        (s.cp0.status.cu.getLsbD 1 = true → exec (.lwc1 base rt off) s = .next (takeException .dbe s)) ∧
        (s.cp0.status.cu.getLsbD 2 = true → exec (.lwc2 base rt off) s = .next (takeException .dbe s))) ∧
      (s.storeFails va = true → exec (.sw base rt off) s = .next (takeException .dbe s) ∧
        (s.llBit = true → exec (.sc base rt off) s = .next (takeException .dbe s)) ∧
        (s.cp0.status.cu.getLsbD 1 = true → exec (.swc1 base rt off) s = .next (takeException .dbe s)) ∧
        (s.cp0.status.cu.getLsbD 2 = true → exec (.swc2 base rt off) s = .next (takeException .dbe s)))) ∧
    (cachedAddress va = true → (s.storeFails va = true ↔
      (s.dset va).find (lineTag va) = none ∧ s.busError .store (physicalLine va) 64 = true) ∧
      ∀ n, (s.loadFails va n = true ↔
        (s.dset va).find (lineTag va) = none ∧ s.busError .load (physicalLine va) 64 = true)) ∧
    (cachedAddress va = false → s.storeFails va = false ∧
      ∀ n, s.loadFails va n = s.busError .load (physical va) n) ∧
    (takeException .dbe s).cp0.badVAddr = s.cp0.badVAddr

/-- If SW and then LW through the same effective address both complete, the loaded register holds what the stored one held: in cached and non-cached segments, on hits and misses, with full or empty buffers, in both byte orders. -/
def Obligations.LoadAfterStore : Prop :=
  ∀ (s t u : State) (base rt rd : Reg) (off : Imm16), rd ≠ 0#5 →
    exec (.sw base rt off) s = .next t → t.entered = false →
    exec (.lw base rd off) t = .next u → u.entered = false → u.reg rd = s.reg rt

/-- In a state whose writeback buffer is empty, whose non-cached write buffer has room and whose clean lines equal memory, after a load or store that completes every address outside the stored bytes (computed as the meaning computes them) reads as before, for each address whose physical bytes no dirty line of another virtual address holds. (Settled also asks that RAM lies under every dirty line, so that what is written back can be read again.) -/
def Obligations.LoadStoreFrame : Prop :=
  ∀ (i : Instr) (s t : State), i.isLoadOrStore = true → s.Settled → exec i s = .next t → t.entered = false →
    ∀ a, s.Unaliased a → a ∉ storedAddresses i s → t.byteAt a = s.byteAt a

/-- A store goes to the data cache or to the non-cached write buffer, never to memory directly: whatever the instruction, a byte of physical memory that neither the writeback buffer nor the non-cached write buffer is about to write reads after it as before. -/
def Obligations.MemoryChangesOnlyFromBuffers : Prop :=
  ∀ (i : Instr) (s t : State) (a : Nat), exec i s = .next t → a ∉ s.inFlight → t.mem.read a = s.mem.read a

/-- Let p be LWR at A and q be LWL at A + 3 in little-endian order, and p be LWL at A and q be LWR at A + 3 in big-endian order (GK5, log entry 5), each computing its address from its own base, which may be rt, in the state in which it runs. If p and then q, or q and then p, both complete, rt holds the four bytes at A, A + 1, A + 2 and A + 3 (modulo 2^32) as they read before the pair, in the byte order in force, and r0 still reads 0. Asked for only where A + 3 lies in another cache line than A and the instruction that runs first is cached: that the data side is settled and that no dirty line of another virtual address holds the physical line which the second instruction reads. -/
def Obligations.UnalignedWordLoad : Prop :=
  ∀ (s t u : State) (b c rt : Reg) (off off' : Imm16) (a v : Word) (p q : Instr),
    (s.bigEndian = false → p = .lwr b rt off ∧ q = .lwl c rt off' ∧
      v = s.byteAt (a + 3) ++ s.byteAt (a + 2) ++ s.byteAt (a + 1) ++ s.byteAt a) →
    (s.bigEndian = true → p = .lwl b rt off ∧ q = .lwr c rt off' ∧
      v = s.byteAt a ++ s.byteAt (a + 1) ++ s.byteAt (a + 2) ++ s.byteAt (a + 3)) →
    (a = s.effectiveAddress b off → (a + 3) = t.effectiveAddress c off' →
      a.toNat % 64 ≤ 60 ∨ cachedAddress a = false ∨ s.Settled ∧ s.Unaliased (a + 3) →
      exec p s = .next t → t.entered = false → exec q t = .next u → u.entered = false →
      u.reg rt = if rt = 0#5 then 0 else v) ∧
    ((a + 3) = s.effectiveAddress c off' → a = t.effectiveAddress b off →
      a.toNat % 64 ≤ 60 ∨ cachedAddress (a + 3) = false ∨ s.Settled ∧ s.Unaliased a →
      exec q s = .next t → t.entered = false → exec p t = .next u → u.entered = false →
      u.reg rt = if rt = 0#5 then 0 else v)

/-- With CUz = 1: MTCz writes CPR[z][rd] from x[rt], MFCz writes x[rt] from CPR[z][rd]; LWCz loads CPR[z][rt] as LW does and SWCz stores it as SW does, where the address is aligned and permitted and no bus error stands in the way. Nothing else changes but pc and the data side. Writing CPR[z][n] changes nothing but that register, which then reads as what was written. The data cache is touched or filled, and the non-cached write buffer receives its entry, as for LW and SW: when the buffers empty, what a full buffer does and that a store is one entry of it is log entry 15's choice, and which of two invalid ways is filled is log entry 16's. -/
def Obligations.CoprocessorMoves : Prop :=
  ∀ (s : State) (base rt rd : Reg) (off : Imm16) (va : Word), va = s.effectiveAddress base off →
    (s.cp0.status.cu.getLsbD 1 = true →
      exec (.mtc1 rt rd) s = .next ((s.setCpr .cp1 rd (s.reg rt)).retire .other) ∧
      exec (.mfc1 rt rd) s = .next ((s.setReg rt (s.cpr .cp1 rd)).retire .other) ∧
      (Permitted s va 4 → s.loadFails va 4 = false →
        (∃ t, exec (.lwc1 base rt off) s = .next t ∧ DataRead va s t) ∧
        ∃ u, OnlyDataSide s u ∧ u.stores = s.stores ∧ exec (.lwc1 base rt off) s =
          .next ((u.setCpr .cp1 rt (assemble s.bigEndian (s.bytesAt va 4))).retire .other)) ∧
      (Permitted s va 4 → s.storeFails va = false →
        (∃ t, exec (.swc1 base rt off) s = .next t ∧
          DataWritten va (layOut s.bigEndian 4 (s.cpr .cp1 rt)) s t) ∧
        ∃ u, OnlyDataSide s u ∧ exec (.swc1 base rt off) s = .next (u.retire .other) ∧
          u.bytesAt va 4 = layOut s.bigEndian 4 (s.cpr .cp1 rt))) ∧
    (s.cp0.status.cu.getLsbD 2 = true →
      exec (.mtc2 rt rd) s = .next ((s.setCpr .cp2 rd (s.reg rt)).retire .other) ∧
      exec (.mfc2 rt rd) s = .next ((s.setReg rt (s.cpr .cp2 rd)).retire .other) ∧
      (Permitted s va 4 → s.loadFails va 4 = false →
        (∃ t, exec (.lwc2 base rt off) s = .next t ∧ DataRead va s t) ∧
        ∃ u, OnlyDataSide s u ∧ u.stores = s.stores ∧ exec (.lwc2 base rt off) s =
          .next ((u.setCpr .cp2 rt (assemble s.bigEndian (s.bytesAt va 4))).retire .other)) ∧
      (Permitted s va 4 → s.storeFails va = false →
        (∃ t, exec (.swc2 base rt off) s = .next t ∧
          DataWritten va (layOut s.bigEndian 4 (s.cpr .cp2 rt)) s t) ∧
        ∃ u, OnlyDataSide s u ∧ exec (.swc2 base rt off) s = .next (u.retire .other) ∧
          u.bytesAt va 4 = layOut s.bigEndian 4 (s.cpr .cp2 rt))) ∧
    (∀ (z y : Cop) (n k : Reg) (v : Word),
      (s.setCpr z n v).cpr y k = (if y = z ∧ k = n then v else s.cpr y k) ∧
      ((s.setCpr z n v).cop y).ctl = (s.cop y).ctl ∧
      s.setCpr z n v = { s with cop1 := (s.setCpr z n v).cop1, cop2 := (s.setCpr z n v).cop2,
                                cop3 := (s.setCpr z n v).cop3 })

/-- With CUz = 1 each completes. CTCz hands coprocessor z the number rd and x[rt], keeps every CPR[z] register and changes nothing outside coprocessor z; CFCz hands it rd and writes to rt what it answers; COPz hands it cofun and changes nothing outside coprocessor z. What the coprocessor itself does with them is Config's (log entry 19). -/
def Obligations.CoprocessorControl : Prop :=
  ∀ (s : State) (rt rd : Reg) (cofun : BitVec 25),
    (s.cp0.status.cu.getLsbD 1 = true →
      exec (.ctc1 rt rd) s = .next ((({ s with cop1 := { s.cop1 with ctl :=
        { Config.copWriteControl .cp1 rd (s.reg rt) s.cop1.ctl s.freeCount with oldCond := s.cop1.ctl.cond } } }).drawn
          1).retire .fpuCond) ∧
      exec (.cfc1 rt rd) s =
        .next (((s.drawn 1).setReg rt (Config.copReadControl .cp1 rd s.cop1.ctl s.freeCount)).retire .other) ∧
      (∃ c, c = Config.copOperate .cp1 cofun s.cop1 s.freeCount ∧ exec (.cop1 cofun) s =
        .next ((({ s with cop1 := { c with ctl := { c.ctl with oldCond := s.cop1.ctl.cond } } }).drawn 1).retire
          .fpuCond))) ∧
    (s.cp0.status.cu.getLsbD 2 = true →
      exec (.ctc2 rt rd) s = .next ((({ s with cop2 := { s.cop2 with ctl :=
        { Config.copWriteControl .cp2 rd (s.reg rt) s.cop2.ctl s.freeCount with oldCond := s.cop2.ctl.cond } } }).drawn
          1).retire .other) ∧
      exec (.cfc2 rt rd) s =
        .next (((s.drawn 1).setReg rt (Config.copReadControl .cp2 rd s.cop2.ctl s.freeCount)).retire .other) ∧
      (∃ c, c = Config.copOperate .cp2 cofun s.cop2 s.freeCount ∧ exec (.cop2 cofun) s =
        .next ((({ s with cop2 := { c with ctl := { c.ctl with oldCond := s.cop2.ctl.cond } } }).drawn 1).retire
          .other)))

/-- With CUz = 1 and outside a delay slot each branches as the core's branches do, to A + 4 + 4 * offset (GK3, log entry 3), on CpCond[z]; a BC1 directly after CTC1 or a COP1 operation sees the old or the new condition, freely (R366, log entry 22). In a delay slot each is refused (R305, the spec's decision D13, log entry 23). -/
def Obligations.CoprocessorBranches : Prop :=
  ∀ (s : State) (off : Imm16),
    (s.cp0.status.cu.getLsbD 1 = true → s.inDelaySlot = false → s.last1 ≠ .fpuCond →
      BranchResult (s.cop1.ctl.cond = false) off s (exec (.bc1f off) s) ∧
      BranchResult (s.cop1.ctl.cond = true) off s (exec (.bc1t off) s) ∧
      LikelyResult (s.cop1.ctl.cond = false) off s (exec (.bc1fl off) s) ∧
      LikelyResult (s.cop1.ctl.cond = true) off s (exec (.bc1tl off) s)) ∧
    (s.cp0.status.cu.getLsbD 1 = true → s.inDelaySlot = false → s.last1 = .fpuCond →
      ∃ c, (c = s.cop1.ctl.cond ∨ c = s.cop1.ctl.oldCond) ∧
        BranchResult (c = false) off (s.drawn 1) (exec (.bc1f off) s) ∧
        BranchResult (c = true) off (s.drawn 1) (exec (.bc1t off) s) ∧
        LikelyResult (c = false) off (s.drawn 1) (exec (.bc1fl off) s) ∧
        LikelyResult (c = true) off (s.drawn 1) (exec (.bc1tl off) s)) ∧
    (s.cp0.status.cu.getLsbD 2 = true → s.inDelaySlot = false →
      BranchResult (s.cop2.ctl.cond = false) off s (exec (.bc2f off) s) ∧
      BranchResult (s.cop2.ctl.cond = true) off s (exec (.bc2t off) s) ∧
      LikelyResult (s.cop2.ctl.cond = false) off s (exec (.bc2fl off) s) ∧
      LikelyResult (s.cop2.ctl.cond = true) off s (exec (.bc2tl off) s)) ∧
    (∀ i, i ∈ [.bc1f off, .bc1t off, .bc1fl off, .bc1tl off] → s.cp0.status.cu.getLsbD 1 = true →
      s.inDelaySlot = true → exec i s = .refused .transferInDelaySlot) ∧
    (∀ i, i ∈ [.bc2f off, .bc2t off, .bc2fl off, .bc2tl off] → s.cp0.status.cu.getLsbD 2 = true →
      s.inDelaySlot = true → exec i s = .refused .transferInDelaySlot)

/-- Every instruction of class z = 1, 2, 3 with CUz = 0, in every mode, and every CP0 instruction in user or supervisor mode with CU0 = 0, takes CpU with its coprocessor's number in Cause.CE and has no other effect. Coprocessor 3 is reserved: its instructions with CU3 = 1 are refused (the spec's decision D21). -/
def Obligations.CoprocessorUnusable : Prop :=
  (∀ (i : Instr) (s : State) (z : BitVec 2), i.copClass = some z → s.cp0.status.cu.getLsbD z.toNat = false →
    (z = 0 → s.mode = some .user ∨ s.mode = some .supervisor) →
    exec i s = .next (takeException (.cpU z) s) ∧ (takeException (.cpU z) s).cp0.cause.ce = z ∧
      (takeException (.cpU z) s).cp0.cause.excCode = 11) ∧
    (∀ (i : Instr) (s : State), i.copClass = some 3#2 → s.cp0.status.cu.getLsbD 3 = true →
      exec i s = .refused .cop3Absent)

/-- Where CP0 is usable MFC0 completes with the register in rt; Status and Cause read with their zero bits 0 and Cause.IP[6:2] showing the inputs INT[4:0]; PRId and Config read the configuration's constants; TagLo, TagHi and reserved numbers read a free value (log entry 12). The positions BD 31, CE 29:28, IP 15:8 and ExcCode 6:2 of Cause are general knowledge and not the source's (GK2, log entry 2); that the bits printed 0 read as 0 is log entry 26 (D10). -/
def Obligations.Mfc0Results : Prop :=
  ∀ (s : State) (rt : Reg) (n : Reg), s.cp0Usable →
    exec (.mfc0 rt .badVAddr) s = .next ((s.setReg rt s.cp0.badVAddr).retire .other) ∧
    exec (.mfc0 rt .count) s = .next ((s.setReg rt s.cp0.count).retire .other) ∧
    exec (.mfc0 rt .compare) s = .next ((s.setReg rt s.cp0.compare).retire .other) ∧
    exec (.mfc0 rt .epc) s = .next ((s.setReg rt s.cp0.epc).retire .other) ∧
    exec (.mfc0 rt .errorEPC) s = .next ((s.setReg rt s.cp0.errorEPC).retire .other) ∧
    exec (.mfc0 rt .ebase) s = .next ((s.setReg rt s.cp0.ebase).retire .other) ∧
    exec (.mfc0 rt .prId) s = .next ((s.setReg rt Config.pridValue).retire .other) ∧
    exec (.mfc0 rt .config) s = .next ((s.setReg rt Config.configValue).retire .other) ∧
    (∀ rd, rd = .tagLo ∨ rd = .tagHi ∨ rd = .reserved n →
      exec (.mfc0 rt rd) s = .next (((s.drawn 1).setReg rt s.freeWord).retire .other)) ∧
    (∃ v : Word, exec (.mfc0 rt .status) s = .next ((s.setReg rt v).retire .other) ∧
      v &&& 0x0DAF00E0#32 = 0 ∧ v.extractLsb' 28 4 = s.cp0.status.cu ∧ v.getLsbD 25 = s.cp0.status.re ∧
      v.getLsbD 22 = s.cp0.status.bev ∧ v.getLsbD 20 = s.cp0.status.sr ∧ v.extractLsb' 8 8 = s.cp0.status.im ∧
      v.extractLsb' 3 2 = s.cp0.status.ksu ∧ v.getLsbD 2 = s.cp0.status.erl ∧ v.getLsbD 1 = s.cp0.status.exl ∧
      v.getLsbD 0 = s.cp0.status.ie) ∧
    (∃ v : Word, exec (.mfc0 rt .cause) s = .next ((s.setReg rt v).retire .other) ∧
      v &&& 0x4FFF0083#32 = 0 ∧ v.getLsbD 31 = s.cp0.cause.bd ∧ v.extractLsb' 28 2 = s.cp0.cause.ce ∧
      v.getLsbD 15 = s.cp0.cause.timer ∧ v.extractLsb' 10 5 = s.env.intPins.extractLsb' 0 5 ∧
      v.extractLsb' 8 2 = s.cp0.cause.soft ∧ v.extractLsb' 2 5 = s.cp0.cause.excCode)

/-- Where CP0 is usable MTC0 completes: Count, Compare (which also clears IP[7]), EPC, ErrorEPC and EBase receive x[rt]; Cause receives IP[1:0] only; Status receives its fields, so that it then reads x[rt] AND 0xF250FF1F; BadVAddr, PRId, Config and reserved numbers leave every register unchanged. That IP[1:0] comes from bits 9:8 is general knowledge (GK2, log entry 2); that zero bits and read-only and reserved registers ignore the write is log entry 26 (D9, D10). -/
def Obligations.Mtc0Results : Prop :=
  ∀ (s : State) (rt : Reg) (n : Reg), s.cp0Usable →
    exec (.mtc0 rt .count) s = .next ({ s with cp0 := { s.cp0 with count := s.reg rt } }.retire .mtc0Timer) ∧
    exec (.mtc0 rt .compare) s = .next ({ s with cp0 := { s.cp0 with
      compare := s.reg rt, cause := { s.cp0.cause with timer := false } } }.retire .mtc0Timer) ∧
    exec (.mtc0 rt .epc) s = .next ({ s with cp0 := { s.cp0 with epc := s.reg rt } }.retire .mtc0) ∧
    exec (.mtc0 rt .errorEPC) s = .next ({ s with cp0 := { s.cp0 with errorEPC := s.reg rt } }.retire .mtc0) ∧
    exec (.mtc0 rt .ebase) s = .next ({ s with cp0 := { s.cp0 with ebase := s.reg rt } }.retire .mtc0) ∧
    exec (.mtc0 rt .cause) s = .next ({ s with cp0 := { s.cp0 with
      cause := { s.cp0.cause with soft := (s.reg rt).extractLsb' 8 2 } } }.retire .mtc0) ∧
    (∃ st : Status, exec (.mtc0 rt .status) s = .next ({ s with cp0 := { s.cp0 with status := st } }.retire .mtc0) ∧
      st.toWord = s.reg rt &&& 0xF250FF1F#32) ∧
    (∀ rd, rd = .badVAddr ∨ rd = .prId ∨ rd = .config ∨ rd = .reserved n →
      exec (.mtc0 rt rd) s = .next (s.retire .mtc0)) ∧
    (∀ rd, rd = .tagLo ∨ rd = .tagHi → ∃ lo hi,
      exec (.mtc0 rt rd) s = .next ({ s with cp0 := { s.cp0 with tagLo := lo, tagHi := hi } }.retire .mtc0))

/-- Where CP0 is usable, outside a delay slot and without an MTC0 among the last two instructions, ERET completes: pc is the saved address and npc the next one, ERL is cleared if it was set and else EXL, LLbit is 0, every other register is unchanged. In a delay slot, or after such an MTC0, it is refused. -/
def Obligations.EretResult : Prop :=
  ∀ s : State, s.cp0Usable →
    (s.inDelaySlot = false → s.last1.isMtc0 = false → s.last2.isMtc0 = false →
      ∃ t, exec .eret s = .next t ∧ t.pc = (if s.cp0.status.erl then s.cp0.errorEPC else s.cp0.epc) ∧
        t.npc = t.pc + 4 ∧ t.inDelaySlot = false ∧ t.llBit = false ∧
        (s.cp0.status.erl = true → t.cp0 = { s.cp0 with status := { s.cp0.status with erl := false } }) ∧
        (s.cp0.status.erl = false → t.cp0 = { s.cp0 with status := { s.cp0.status with exl := false } }) ∧
        SameRegs s t ∧ t.hi = s.hi ∧ t.lo = s.lo ∧ t.cop1 = s.cop1 ∧ t.cop2 = s.cop2 ∧ t.cop3 = s.cop3 ∧
        t.env = s.env ∧ SameMemory s t ∧ SameBytes s t) ∧
    (s.inDelaySlot = true → exec .eret s = .refused .eretInDelaySlot) ∧
    (s.inDelaySlot = false → s.last1.isMtc0 = true ∨ s.last2.isMtc0 = true → exec .eret s = .refused .eretAfterMtc0)

/-- Where CP0 is usable and the segment is allowed: Index Unlock clears the set's Lock; Hit Invalidate makes the hitting line invalid and cancels the lock if that line is the locked one, and on a miss or in a non-cached segment (R388, the spec's decision D28, log entry 24) changes nothing; Index Invalidate (I) makes the older of two valid ways invalid, or the only valid one and clears Lock. The other way, the LRU bit, every other set, the registers and memory are unchanged. A way is locked when Lock is 1 and the LRU bit points to the other. -/
def Obligations.CacheInvalidations : Prop :=
  ∀ (s : State) (base : Reg) (off : Imm16) (va : Word), va = s.effectiveAddress base off → s.cp0Usable →
    Permitted s va 1 →
    exec (.cache base .indexUnlockI off) s =
      .next ((s.setIset va { s.iset va with lock := false }).retire .other) ∧
    exec (.cache base .indexUnlockD off) s =
      .next ((s.setDset va { s.dset va with lock := false }).retire .other) ∧
    (∃ t, exec (.cache base .hitInvalidateI off) s = .next t ∧ t = { s.retire .other with icache := t.icache } ∧
      (cachedAddress va = false ∨ (s.iset va).find (lineTag va) = none → t.icache = s.icache) ∧
      ∀ w, cachedAddress va = true → (s.iset va).find (lineTag va) = some w → SameOtherIsets va s t ∧
        ChangedWay (s.iset va) (t.iset va) w { (s.iset va).way w with valid := false }
          ((s.iset va).lock && !(s.iset va).locked w)) ∧
    (∃ t, exec (.cache base .hitInvalidateD off) s = .next t ∧ t = { s.retire .other with dcache := t.dcache } ∧
      (cachedAddress va = false ∨ (s.dset va).find (lineTag va) = none → t.dcache = s.dcache) ∧
      ∀ w, cachedAddress va = true → (s.dset va).find (lineTag va) = some w → SameOtherDsets va s t ∧
        ChangedWay (s.dset va) (t.dset va) w { (s.dset va).way w with valid := false }
          ((s.dset va).lock && !(s.dset va).locked w)) ∧
    (∃ t, exec (.cache base .indexInvalidateI off) s = .next t ∧ t = { s.retire .other with icache := t.icache } ∧
      SameOtherIsets va s t ∧
      (∀ w, (s.iset va).a.valid = true → (s.iset va).b.valid = true → w = (if (s.iset va).lru then .b else .a) →
        ChangedWay (s.iset va) (t.iset va) w { (s.iset va).way w with valid := false } (s.iset va).lock) ∧
      (∀ w, ((s.iset va).way w).valid = true → ((s.iset va).way w.other).valid = false →
        ChangedWay (s.iset va) (t.iset va) w { (s.iset va).way w with valid := false } false) ∧
      ((s.iset va).a.valid = false → (s.iset va).b.valid = false → t.icache = s.icache)) ∧
    (∀ (c : CacheSet Unit) w, c.locked w = true ↔ c.lock = true ∧ w ≠ (if c.lru then .b else .a)) ∧
    (∀ (c : CacheSet Bool) w, c.locked w = true ↔ c.lock = true ∧ w ≠ (if c.lru then .b else .a)) ∧
    (∀ x : CacheSet Unit, (s.setIset va x).iset va = x ∧ SameOtherIsets va s (s.setIset va x)) ∧
    (∀ x : CacheSet Bool, (s.setDset va x).dset va = x ∧ SameOtherDsets va s (s.setDset va x))

/-- Where CP0 is usable and the segment is allowed: Hit Writeback of a dirty line moves its bytes to the writeback buffer and leaves the line valid and clean, and does nothing to a clean one; Hit Writeback Invalidate also makes the line invalid and cancels the lock if the line is the locked one; both change nothing on a miss or in a non-cached segment (R388, the spec's decision D28, log entry 24); Index Writeback Invalidate does so to the older of two valid ways, or to the only valid one and clears Lock. What the writeback buffer held goes to memory first (log entry 15). The other way, the LRU bit, every other set and everything else are unchanged. Each completes. -/
def Obligations.CacheWritebacks : Prop :=
  ∀ (s : State) (base : Reg) (off : Imm16) (va : Word), va = s.effectiveAddress base off → s.cp0Usable →
    Permitted s va 1 →
    (∃ t, exec (.cache base .hitWritebackD off) s = .next t ∧
      t = { s.retire .other with dcache := t.dcache, writeback := t.writeback, mem := t.mem } ∧
      (∀ w, cachedAddress va = true → (s.dset va).find (lineTag va) = some w → ((s.dset va).way w).dirty = true →
        LineMovedOut va w s t ∧ SameOtherDsets va s t ∧
        ChangedWay (s.dset va) (t.dset va) w { (s.dset va).way w with dirty := false } (s.dset va).lock) ∧
      (∀ w, (s.dset va).find (lineTag va) = some w → ((s.dset va).way w).dirty = false → t = s.retire .other) ∧
      (cachedAddress va = false ∨ (s.dset va).find (lineTag va) = none → t = s.retire .other)) ∧
    (∃ t, exec (.cache base .hitWritebackInvalidateD off) s = .next t ∧
      t = { s.retire .other with dcache := t.dcache, writeback := t.writeback, mem := t.mem } ∧
      (∀ w, cachedAddress va = true → (s.dset va).find (lineTag va) = some w →
        WrittenBackIfDirty va w s t ∧ SameOtherDsets va s t ∧
        ChangedWay (s.dset va) (t.dset va) w { (s.dset va).way w with valid := false, dirty := false }
          ((s.dset va).lock && !(s.dset va).locked w)) ∧
      (cachedAddress va = false ∨ (s.dset va).find (lineTag va) = none → t = s.retire .other)) ∧
    (∃ t, exec (.cache base .indexWritebackInvalidateD off) s = .next t ∧
      t = { s.retire .other with dcache := t.dcache, writeback := t.writeback, mem := t.mem } ∧
      (∀ w, (s.dset va).a.valid = true → (s.dset va).b.valid = true → w = (if (s.dset va).lru then .b else .a) →
        WrittenBackIfDirty va w s t ∧ SameOtherDsets va s t ∧
        ChangedWay (s.dset va) (t.dset va) w { (s.dset va).way w with valid := false, dirty := false }
          (s.dset va).lock) ∧
      (∀ w, ((s.dset va).way w).valid = true → ((s.dset va).way w.other).valid = false →
        WrittenBackIfDirty va w s t ∧ SameOtherDsets va s t ∧
        ChangedWay (s.dset va) (t.dset va) w { (s.dset va).way w with valid := false, dirty := false } false) ∧
      ((s.dset va).a.valid = false → (s.dset va).b.valid = false → t = s.retire .other))

/-- Where CP0 is usable, the segment is allowed and cached: on a hit Fill changes nothing, and Fill with Lock at most sets Lock, freely (D48, log entry 12). On a miss, if the bus gives the line, Fill and Fill with Lock fill the way that R111 names with the 64 bytes of the line, valid and clean, a dirty victim of the data cache going to the writeback buffer; the LRU bit then points to the other way unless Lock was 1, and the form with Lock leaves Lock 1 (FilledI, FilledD; when the buffer empties is log entry 15's). Create Dirty Exclusive makes a valid dirty line of free bytes (D48, log entry 24) in the way that hits, or else that R111 names, the form with Lock leaving Lock 1. A failed fill takes DBE. An address that the mode may not reference takes AdEL, whatever the code; else a code that Table 4-1 leaves blank is refused, and so are these operations on a non-cached address (the spec's decision D28, log entry 24). Which way is filled when both are invalid is log entry 16's choice, but for Fill with Lock where Lock was 1: it then fills the way that the LRU bit points to, as R393 says (for the data cache through R401, log entry 36). That Fill with Lock fills the invalid way where Lock was 1 and exactly one way is invalid is log entry 36's choice, since R393 names the older way there too. -/
def Obligations.CacheFills : Prop :=
  ∀ (s : State) (base : Reg) (off : Imm16) (va : Word) (m : Mode), va = s.effectiveAddress base off → s.cp0Usable →
    s.mode = some m →
    (allowedAddress m va = true → cachedAddress va = true →
      ((s.iset va).find (lineTag va) ≠ none → exec (.cache base .fillI off) s = .next (s.retire .other) ∧
        ∃ l, ((s.iset va).lock = true → l = true) ∧ exec (.cache base .fillLockI off) s =
          .next (((s.setIset va { s.iset va with lock := l }).drawn 1).retire .other)) ∧
      ((s.dset va).find (lineTag va) ≠ none → exec (.cache base .fillD off) s = .next (s.retire .other) ∧
        ∃ l, ((s.dset va).lock = true → l = true) ∧ exec (.cache base .fillLockD off) s =
          .next (((s.setDset va { s.dset va with lock := l }).drawn 1).retire .other)) ∧
      ((s.iset va).find (lineTag va) = none → s.busError .load (physicalLine va) 64 = false →
        (∃ t w, exec (.cache base .fillI off) s = .next t ∧ t = { s.retire .other with icache := t.icache } ∧
          FilledI va w s.env.fillWayB (s.iset va).lock s t) ∧
        (∃ t w, exec (.cache base .fillLockI off) s = .next t ∧ t = { s.retire .other with icache := t.icache } ∧
          FilledI va w (if (s.iset va).lock then (s.iset va).lru else s.env.fillWayB) true s t)) ∧
      ((s.dset va).find (lineTag va) = none → s.busError .load (physicalLine va) 64 = false →
        (∃ t w, exec (.cache base .fillD off) s = .next t ∧ t = { s.retire .other with dcache := t.dcache, writeback := t.writeback, mem := t.mem } ∧
          FilledD va w s.env.fillWayB (s.dset va).lock s t) ∧
        (∃ t w, exec (.cache base .fillLockD off) s = .next t ∧ t = { s.retire .other with dcache := t.dcache, writeback := t.writeback, mem := t.mem } ∧
          FilledD va w (if (s.dset va).lock then (s.dset va).lru else s.env.fillWayB) true s t)) ∧
      (∃ t w d, exec (.cache base .createDirtyD off) s = .next t ∧
        t = { (s.drawn 1).retire .other with dcache := t.dcache, writeback := t.writeback, mem := t.mem } ∧
        SameOtherDsets va s t ∧ AccessedWay (s.dset va) (t.dset va) w
          { valid := true, tag := lineTag va, data := d, dirty := true } (s.dset va).lock ∧
        (∀ v, (s.dset va).find (lineTag va) = some v → w = v ∧ t.writeback = s.writeback ∧ t.mem = s.mem) ∧
        ((s.dset va).find (lineTag va) = none → FillsWay (s.dset va) s.env.fillWayB w ∧
          (((s.dset va).way w).valid = true → WrittenBackIfDirty va w s t) ∧
          (((s.dset va).way w).valid = false → t.writeback = s.writeback ∧ t.mem = s.mem))) ∧
      (∃ t w d, exec (.cache base .createDirtyLockD off) s = .next t ∧
        t = { (s.drawn 1).retire .other with dcache := t.dcache, writeback := t.writeback, mem := t.mem } ∧
        SameOtherDsets va s t ∧ AccessedWay (s.dset va) (t.dset va) w
          { valid := true, tag := lineTag va, data := d, dirty := true } true ∧
        (∀ v, (s.dset va).find (lineTag va) = some v → w = v ∧ t.writeback = s.writeback ∧ t.mem = s.mem) ∧
        ((s.dset va).find (lineTag va) = none → FillsWay (s.dset va) s.env.fillWayB w ∧
          (((s.dset va).way w).valid = true → WrittenBackIfDirty va w s t) ∧
          (((s.dset va).way w).valid = false → t.writeback = s.writeback ∧ t.mem = s.mem))) ∧
      ((s.iset va).find (lineTag va) = none → s.busError .load (physicalLine va) 64 = true →
        exec (.cache base .fillI off) s = .next (takeException .dbe s) ∧
        exec (.cache base .fillLockI off) s = .next (takeException .dbe s)) ∧
      ((s.dset va).find (lineTag va) = none → s.busError .load (physicalLine va) 64 = true →
        exec (.cache base .fillD off) s = .next (takeException .dbe s) ∧
        exec (.cache base .fillLockD off) s = .next (takeException .dbe s))) ∧
    (∀ op, allowedAddress m va = false → exec (.cache base op off) s = .next (takeException (.adEL va) s)) ∧
    (∀ f, allowedAddress m va = true → exec (.cache base (.blank f) off) s = .refused .blankCacheCode) ∧
    (allowedAddress m va = true → cachedAddress va = false →
      ∀ op, op ∈ [.fillI, .fillLockI, .createDirtyD, .createDirtyLockD, .fillD, .fillLockD] →
        exec (.cache base op off) s = .refused .cacheOpUncached)

/-- With EXL = 0 EPC is pc, or pc - 4 with BD = 1 in a delay slot; with EXL = 1 EPC and BD are kept (GK7, log entry 8). ExcCode is the exception's code (R420): 0 for Int, 4 AdEL, 5 AdES, 6 IBE, 7 DBE, 8 Sys, 9 Bp, 10 RI, 11 CpU, 12 Ov and 15 FPE; EXL becomes 1, control goes to 0xBFC00200 or EBase by BEV, in kernel mode with interrupts disabled; no other Status field, general register, HI, LO, LLbit, byte of memory or coprocessor changes. -/
def Obligations.GeneralExceptionEntry : Prop :=
  ∀ (s t : State) (e : GeneralException), t = takeException e s →
    (s.cp0.status.exl = false → s.inDelaySlot = false → t.cp0.epc = s.pc ∧ t.cp0.cause.bd = false) ∧
    (s.cp0.status.exl = false → s.inDelaySlot = true → t.cp0.epc = s.pc - 4 ∧ t.cp0.cause.bd = true) ∧
    (s.cp0.status.exl = true → t.cp0.epc = s.cp0.epc ∧ t.cp0.cause.bd = s.cp0.cause.bd) ∧
    (e = .int → t.cp0.cause.excCode = 0#5) ∧ (∀ va, e = .adEL va → t.cp0.cause.excCode = 4#5) ∧
    (∀ va, e = .adES va → t.cp0.cause.excCode = 5#5) ∧ (e = .ibe → t.cp0.cause.excCode = 6#5) ∧
    (e = .dbe → t.cp0.cause.excCode = 7#5) ∧ (e = .sys → t.cp0.cause.excCode = 8#5) ∧
    (e = .bp → t.cp0.cause.excCode = 9#5) ∧ (e = .ri → t.cp0.cause.excCode = 10#5) ∧
    (∀ z, e = .cpU z → t.cp0.cause.excCode = 11#5) ∧ (e = .ov → t.cp0.cause.excCode = 12#5) ∧
    (e = .fpe → t.cp0.cause.excCode = 15#5) ∧
    t.cp0.cause.excCode = e.code ∧ t.cp0.cause.timer = s.cp0.cause.timer ∧ t.cp0.cause.soft = s.cp0.cause.soft ∧
    t.cp0.status = { s.cp0.status with exl := true } ∧ t.mode = some .kernel ∧ t.interruptCondition = false ∧
    t.pc = (if s.cp0.status.bev then 0xBFC00200#32 else s.cp0.ebase) ∧ t.npc = t.pc + 4 ∧ t.inDelaySlot = false ∧
    (∀ va, e = .adEL va ∨ e = .adES va → t.cp0.badVAddr = va) ∧
    ((∀ va, e ≠ .adEL va ∧ e ≠ .adES va) → t.cp0.badVAddr = s.cp0.badVAddr) ∧
    (∀ z, e = .cpU z → t.cp0.cause.ce = z) ∧
    t.cp0.count = s.cp0.count ∧ t.cp0.compare = s.cp0.compare ∧ t.cp0.errorEPC = s.cp0.errorEPC ∧
    t.cp0.ebase = s.cp0.ebase ∧ SameRegs s t ∧ t.hi = s.hi ∧ t.lo = s.lo ∧ t.llBit = s.llBit ∧ t.cop1 = s.cop1 ∧
    t.cop2 = s.cop2 ∧ t.cop3 = s.cop3 ∧ SameMemory s t ∧ SameBytes s t

/-- From a state with ERL = EXL = 0, taking a general exception and then the effect of ERET leads back to the restart address (the branch, if the instruction was in its delay slot) with Status and every general register as before and LLbit = 0. -/
def Obligations.ExceptionAndReturn : Prop :=
  ∀ (s : State) (e : GeneralException), s.cp0.status.erl = false → s.cp0.status.exl = false →
    ∃ t, exec .eret (takeException e s) = .next t ∧ t.pc = (if s.inDelaySlot then s.pc - 4 else s.pc) ∧
      t.npc = t.pc + 4 ∧ t.cp0.status = s.cp0.status ∧ t.mode = s.mode ∧ t.llBit = false ∧ SameRegs s t

/-- IntCond holds exactly when interrupts are enabled and some IP bit is set with its IM bit. When it holds, no event or FPU exception is in the way and the instruction at pc would complete, the step takes Int in the state after the fetch, with none of the instruction's writes; when the instruction enters an exception of its own, that one is taken. (The FPU exception of the instruction itself is in FpuExceptionTaken. That the condition is sampled as the step begins is log entry 29.) -/
def Obligations.InterruptTaken : Prop :=
  ∀ (s t u : State) (w : Word) (m : Mode),
    (s.interruptCondition = true ↔ s.cp0.status.ie = true ∧ s.cp0.status.exl = false ∧ s.cp0.status.erl = false ∧
      ∃ n, n < 8 ∧ s.pending.getLsbD n = true ∧ s.cp0.status.im.getLsbD n = true) ∧
    (s.event = none → s.begin.mode = some m → s.begin.fpeDue = false → s.begin.interruptCondition = true →
      fetch s.begin = .ok w t → runWord w t = .next u →
      (u.entered = false → u.raisesFpe t = false → step s = .next (takeException .int t).endStep) ∧
      (u.entered = true → step s = .next u.endStep))

/-- With EXL = ERL = 0 and after a fetch that succeeds: when the FPU's request stands as the step begins, the step takes FPE in the state after the fetch, unless the instruction's own exception is Ov or Sys, which is then the one taken (D37), and so too where the instruction would be refused if it were executed; when the instruction itself makes the FPU request, FPE is taken in its place, with the CPU as before it and the FPU as after it, whatever interrupt is pending. A request that is to come stands after its number of steps (log entry 19, log entry 28). -/
def Obligations.FpuExceptionTaken : Prop :=
  ∀ (s t : State) (w : Word) (m : Mode),
    s.event = none → s.begin.mode = some m → s.begin.cp0.status.exl = false →
    s.begin.cp0.status.erl = false → fetch s.begin = .ok w t →
    (∀ u, runWord w t = .next u →
      (s.begin.cop1.ctl.excRequest = some 0 →
        ((u.entered = true ∧ (u.cp0.cause.excCode = 12 ∨ u.cp0.cause.excCode = 8)) → step s = .next u.endStep) ∧
        (¬(u.entered = true ∧ (u.cp0.cause.excCode = 12 ∨ u.cp0.cause.excCode = 8)) →
          step s = .next (takeException .fpe t).endStep)) ∧
      (s.begin.cop1.ctl.excRequest ≠ some 0 → u.cop1.ctl.excRequest = some 0 →
        step s = .next (takeException .fpe { t with cop1 := u.cop1, freeCount := u.freeCount }).endStep)) ∧
    (∀ x, runWord w t = .refused x → s.begin.cop1.ctl.excRequest = some 0 →
      step s = .next (takeException .fpe t).endStep) ∧
    (∀ n, s.env.inputs = [] → s.cop1.ctl.excRequest = some (n + 1) → s.begin.cop1.ctl.excRequest = some n)

/-- Outside user mode with RE = 1, a fetch at a word-aligned allowed pc gives, from a non-cached segment without a bus error, the word whose bits 7:0, 15:8, 23:16 and 31:24 are the bytes that the bus delivers for Phys(pc), +1, +2 and +3, and changes nothing; from a cached segment whose line is in the instruction cache it gives the same of that line, and the LRU bit points to the other way unless Lock is 1; if the line is not there, it gives the same of physical memory, having filled with the line the way that R111 names. The bus delivers what memory holds where there is RAM or ROM and else what the outside gives (log entry 10). A step without an event whose pc is not word-aligned, or lies outside what the mode may reference, takes AdEL with BadVAddr = pc; one whose bus read fails takes IBE; whatever interrupt or FPU request is pending. Which way is filled when both are invalid is log entry 16's choice. -/
def Obligations.InstructionFetch : Prop :=
  ∀ (s : State) (m : Mode),
    (s.mode = some m → allowedAddress m s.pc = true → s.pc.toNat % 4 = 0 → s.bigEndian = false →
      (cachedAddress s.pc = false → s.busError .fetch (physical s.pc) 4 = false →
        fetch s = .ok (s.physByte (physical s.pc + 3) ++ s.physByte (physical s.pc + 2) ++
          s.physByte (physical s.pc + 1) ++ s.physByte (physical s.pc)) s) ∧
      (∀ w, cachedAddress s.pc = true → (s.iset s.pc).find (lineTag s.pc) = some w →
        ∃ t, fetch s = .ok (lineByte ((s.iset s.pc).way w).data (s.pc + 3) ++ lineByte ((s.iset s.pc).way w).data (s.pc + 2)
          ++ lineByte ((s.iset s.pc).way w).data (s.pc + 1) ++ lineByte ((s.iset s.pc).way w).data s.pc) t ∧
          t = { s with icache := t.icache } ∧ SameOtherIsets s.pc s t ∧
          AccessedWay (s.iset s.pc) (t.iset s.pc) w ((s.iset s.pc).way w) (s.iset s.pc).lock) ∧
      (cachedAddress s.pc = true → (s.iset s.pc).find (lineTag s.pc) = none →
        s.busError .fetch (physicalLine s.pc) 64 = false →
        ∃ t w, fetch s = .ok (s.physByte (physical s.pc + 3) ++ s.physByte (physical s.pc + 2) ++
            s.physByte (physical s.pc + 1) ++ s.physByte (physical s.pc)) t ∧
          t = { s with icache := t.icache } ∧ FilledI s.pc w s.env.fillWayB (s.iset s.pc).lock s t)) ∧
    (∀ a, ((s.env.region a).kind = .ram ∨ (s.env.region a).kind = .rom → s.physByte a = s.mem.read a) ∧
      ((s.env.region a).kind = .device ∨ (s.env.region a).kind = .nothing →
        s.physByte a = Config.outsideByte a s.env.time)) ∧
    (s.event = none → s.begin.mode = some m →
      (s.begin.pc.toNat % 4 ≠ 0 ∨ allowedAddress m s.begin.pc = false →
        step s = .next (takeException (.adEL s.begin.pc) s.begin).endStep ∧
          (takeException (.adEL s.begin.pc) s.begin).cp0.badVAddr = s.begin.pc) ∧
      (s.begin.pc.toNat % 4 = 0 → allowedAddress m s.begin.pc = true → cachedAddress s.begin.pc = false →
        s.begin.busError .fetch (physical s.begin.pc) 4 = true →
        step s = .next (takeException .ibe s.begin).endStep) ∧
      (s.begin.pc.toNat % 4 = 0 → allowedAddress m s.begin.pc = true → cachedAddress s.begin.pc = true →
        (s.begin.iset s.begin.pc).find (lineTag s.begin.pc) = none →
        s.begin.busError .fetch (physicalLine s.begin.pc) 64 = true →
        step s = .next (takeException .ibe s.begin).endStep))

/-- Count becomes Count + k modulo 2^32 with k = CountStep >= 1. IP[7] stays 1 if it was, and otherwise becomes 1 exactly if some Count + j with 1 <= j <= k equals Compare; nothing else changes. So it is also at the end of a step that executed an MTC0 to Count or Compare which leaves the two unequal; when it leaves them equal, be it right after the write or after the advance, IP[7] is a free value (R453; that both readings are left open is log entry 14). -/
def Obligations.TimerAdvance : Prop :=
  ∀ s : State, 1 ≤ s.countStep ∧
    ((s.last1 ≠ .mtc0Timer ∨ (s.cp0.count ≠ s.cp0.compare ∧
        s.cp0.count + BitVec.ofNat 32 s.countStep ≠ s.cp0.compare)) →
      s.endStep = { s with cp0 := { s.cp0 with
        count := s.cp0.count + BitVec.ofNat 32 s.countStep
        cause := { s.cp0.cause with timer := s.endStep.cp0.cause.timer } } } ∧
      (s.endStep.cp0.cause.timer = true ↔ s.cp0.cause.timer = true ∨
        ∃ j, 1 ≤ j ∧ j ≤ s.countStep ∧ s.cp0.count + BitVec.ofNat 32 j = s.cp0.compare)) ∧
    (s.last1 = .mtc0Timer → (s.cp0.count = s.cp0.compare ∨
        s.cp0.count + BitVec.ofNat 32 s.countStep = s.cp0.compare) →
      s.endStep = { s.drawn 1 with cp0 := { s.cp0 with
        count := s.cp0.count + BitVec.ofNat 32 s.countStep
        cause := { s.cp0.cause with timer := s.freeBit } } })

/-- Each goes to 0xBFC00000 in kernel mode with ERL = BEV = 1, SR = 0 after a hardware reset and 1 otherwise. NMI and software reset save the restart address (the branch, in a delay slot) in ErrorEPC; NMI keeps everything else: every register, the other CP0 registers and the rest of Status, LLbit and the coprocessors (both log entry 34), memory, caches and buffers. After a reset the rest of Status, Cause, EPC, the other CP0 registers, r1 to r31, HI, LO, LLbit, the data cache, the instruction cache but for its Valid bits, and the coprocessors are what the unconstrained Config.afterReset makes of what was there, as R58 calls them unspecified, and so is ErrorEPC after a hardware reset (log entry 18; R445 says of error exceptions that EPC, Cause.BD, Cause.ExcCode and Status.EXL do not change, which is among the possibilities). A reset invalidates the instruction cache and loses both buffers; that it keeps every memory byte that no buffer was writing is log entry 18's reading of R58. A signalled event is what the step takes: XRST before XSRST before XNMI (R455; that each step reads one input is log entry 13). -/
def Obligations.ErrorExceptionEntry : Prop :=
  ∀ (s : State) (k : ErrorException),
    (errorEntry k s).pc = 0xBFC00000#32 ∧ (errorEntry k s).npc = 0xBFC00004#32 ∧ (errorEntry k s).inDelaySlot = false ∧
    (errorEntry k s).mode = some .kernel ∧ (errorEntry k s).cp0.status.erl = true ∧
    (errorEntry k s).cp0.status.bev = true ∧ ((errorEntry k s).cp0.status.sr = true ↔ k ≠ .hardwareReset) ∧
    (k ≠ .hardwareReset → (errorEntry k s).cp0.errorEPC = if s.inDelaySlot then s.pc - 4 else s.pc) ∧
    (k = .nmi → errorEntry k s = { s with
        cp0 := { s.cp0 with
          status := { s.cp0.status with erl := true, bev := true, sr := true }
          errorEPC := if s.inDelaySlot then s.pc - 4 else s.pc }
        pc := 0xBFC00000#32, npc := 0xBFC00004#32, inDelaySlot := false, last1 := .entry, last2 := .entry } ∧
      SameRegs s (errorEntry k s) ∧ SameMemory s (errorEntry k s) ∧ SameBytes s (errorEntry k s)) ∧
    (k ≠ .nmi → ∃ u, u = Config.afterReset s.freeCount s.resettable ∧
      (errorEntry k s).cp0 = { u.cp0 with
        status := { u.cp0.status with erl := true, bev := true, sr := (errorEntry k s).cp0.status.sr }
        errorEPC := (errorEntry k s).cp0.errorEPC } ∧
      (k = .hardwareReset → (errorEntry k s).cp0.errorEPC = u.cp0.errorEPC) ∧
      (∀ r : Reg, r ≠ 0#5 → (errorEntry k s).reg r = u.regs[r.toNat]'r.isLt) ∧ (errorEntry k s).reg 0#5 = 0 ∧
      (errorEntry k s).hi = u.hi ∧ (errorEntry k s).lo = u.lo ∧ (errorEntry k s).llBit = u.llBit ∧
      (errorEntry k s).dcache = u.dcache ∧ (errorEntry k s).cop1 = u.cop1 ∧ (errorEntry k s).cop2 = u.cop2 ∧
      (errorEntry k s).cop3 = u.cop3 ∧
      (∀ va, (errorEntry k s).iset va =
        CacheSet.invalidateAll (u.icache[(setIndex va).toNat]'(setIndex va).isLt))) ∧
    (k ≠ .nmi → (errorEntry k s).writeback = none ∧ (errorEntry k s).stores = [] ∧
      (∀ va w, (((errorEntry k s).iset va).way w).valid = false) ∧
      (∀ a, a ∉ s.inFlight → (errorEntry k s).mem.read a = s.mem.read a)) ∧
    (s.event = some k → step s = .next (errorEntry k s.begin).endStep) ∧
    (s.env.inputs = [] → s.event = none) ∧
    (∀ i rest, s.env.inputs = i :: rest →
      (i.xrst = true → s.event = some .hardwareReset) ∧
      (i.xrst = false → i.xsrst = true → s.event = some .softwareReset) ∧
      (i.xrst = false → i.xsrst = false → i.xnmi = true → s.event = some .nmi) ∧
      (i.xrst = false → i.xsrst = false → i.xnmi = false → s.event = none))

/-- For every instruction and every state: if it gives a next state, every general register other than its destination register holds what it held, also when it takes an exception. A register that is written, State.setReg, then reads as what was written, every other register as before; r0 reads 0 and a write to it is discarded; nothing else changes by the write. -/
def Obligations.OnlyDestinationChanges : Prop :=
  (∀ (i : Instr) (s t : State) (r : Reg), exec i s = .next t → i.destination ≠ some r → t.reg r = s.reg r) ∧
    (∀ (s : State) (r q : Reg) (v : Word), s.reg 0#5 = 0 ∧
      (s.setReg r v).reg q = (if q = r ∧ r ≠ 0#5 then v else s.reg q) ∧
      s.setReg r v = { s with regs := (s.setReg r v).regs })

/-- For every instruction that gives a next state without an exception: HI and LO change only by the multiply, divide and MTHI/MTLO instructions; LLbit only by LL, SC and ERET; the CP0 registers only by MTC0 and ERET; coprocessor z only by LWCz, MTCz, CTCz and COPz; memory, caches and buffers only by loads, stores, SYNC and CACHE; the environment never. -/
def Obligations.OnlyTheirWritersChangeSpecialState : Prop :=
  ∀ (i : Instr) (s t : State), exec i s = .next t → t.entered = false →
    (i.writesHiLo = false → t.hi = s.hi ∧ t.lo = s.lo) ∧
    (t.llBit ≠ s.llBit → (∃ base rt off, i = .ll base rt off ∨ i = .sc base rt off) ∨ i = .eret) ∧
    (t.cp0 ≠ s.cp0 → (∃ rt rd, i = .mtc0 rt rd) ∨ i = .eret) ∧
    (∀ z, i.changesCop ≠ some z → t.cop z = s.cop z) ∧
    (i.usesMemory = false → SameMemory s t ∧ SameBytes s t) ∧ t.env = s.env

/-- In user or supervisor mode with CU0 = 0, whatever the instruction: either it takes an exception (and then control is at the general exception vector in kernel mode), or every CP0 register, and so the mode and the interrupt enable, is as before. -/
def Obligations.UserModeCannotChangeCp0 : Prop :=
  ∀ (i : Instr) (s t : State), s.cp0.status.cu.getLsbD 0 = false → (s.mode = some .user ∨ s.mode = some .supervisor) →
    exec i s = .next t →
    (t.entered = true ∧ t.mode = some .kernel ∧ t.pc = s.vector ∧ SameRegs s t ∧ SameMemory s t) ∨
    (t.entered = false ∧ t.cp0 = s.cp0 ∧ t.mode = s.mode)

/-- For every instruction and every state that does not stand at an entry already: if the next state is an exception entry, it is the general exception entry, of some exception, in the state the instruction began in: no register, memory, cache or buffer write of the instruction has happened. -/
def Obligations.ExceptionsArePrecise : Prop :=
  ∀ (i : Instr) (s t : State), exec i s = .next t → t.entered = true → ∃ e, t = takeException e s
end

