-- ==== Sys2Proof/Laws/AddressMap.lean ====
section
/-! SUPPORT. Addresses as numbers: physical addresses, lines and the bytes of a word. -/

namespace Sys2Proof.Machine

theorem toNat_append {n m : Nat} (x : BitVec n) (y : BitVec m) : (x ++ y).toNat = x.toNat * 2 ^ m + y.toNat := by
  rw [BitVec.toNat_append, ← Nat.shiftLeft_add_eq_or_of_lt y.isLt, Nat.shiftLeft_eq]

theorem toNat_lineAddress (t : BitVec 19) (i : BitVec 7) :
    (lineAddress t i).toNat = t.toNat * 8192 + i.toNat * 64 := by
  simp only [lineAddress, toNat_append]
  simp
  omega

theorem toNat_lineTag (va : Word) : (lineTag va).toNat = va.toNat / 8192 := by
  have := va.isLt
  simp only [lineTag, BitVec.extractLsb'_toNat, Nat.shiftRight_eq_div_pow]
  omega

theorem toNat_setIndex (va : Word) : (setIndex va).toNat = va.toNat / 64 % 128 := by
  simp only [setIndex, BitVec.extractLsb'_toNat, Nat.shiftRight_eq_div_pow]

theorem toNat_lineOffset (va : Word) : (lineOffset va).toNat = va.toNat % 64 := by
  simp [lineOffset, BitVec.extractLsb'_toNat]

theorem toNat_byteInWord (va : Word) : (byteInWord va).toNat = va.toNat % 4 := by
  simp [byteInWord, BitVec.extractLsb'_toNat]

theorem toNat_wordAddress (va : Word) : (wordAddress va).toNat = va.toNat / 4 * 4 := by
  have := va.isLt
  simp only [wordAddress, toNat_append, BitVec.extractLsb'_toNat, Nat.shiftRight_eq_div_pow]
  simp
  omega

/-- The line of an address, as a number. -/
theorem toNat_line (va : Word) : (lineAddress (lineTag va) (setIndex va)).toNat = va.toNat / 64 * 64 := by
  rw [toNat_lineAddress, toNat_lineTag, toNat_setIndex]
  omega

theorem getLsbD_31 (va : Word) : va.getLsbD 31 = decide (2147483648 ≤ va.toNat) := by
  have := va.isLt
  rw [BitVec.getLsbD, Nat.testBit_eq_decide_div_mod_eq]
  by_cases h : 2147483648 ≤ va.toNat
  · simp [h]; omega
  · simp [h]; omega

theorem getLsbD_30 (va : Word) : va.getLsbD 30 = decide (va.toNat / 1073741824 % 2 = 1) := by
  rw [BitVec.getLsbD, Nat.testBit_eq_decide_div_mod_eq]

theorem getLsbD_29 (va : Word) : va.getLsbD 29 = decide (va.toNat / 536870912 % 2 = 1) := by
  rw [BitVec.getLsbD, Nat.testBit_eq_decide_div_mod_eq]

/-- `Phys(VA)` as a number. -/
theorem physical_eq (va : Word) :
    physical va = if 2147483648 ≤ va.toNat then va.toNat % 536870912 else va.toNat % 1073741824 := by
  simp only [physical, getLsbD_31, decide_eq_true_eq, BitVec.extractLsb'_toNat, Nat.shiftRight_zero]

theorem physical_lt (va : Word) : physical va < 2 ^ 30 := by
  rw [physical_eq]
  split <;> omega

theorem physicalLine_eq (va : Word) : physicalLine va = physical va / 64 * 64 := by
  rw [physicalLine, physical_eq, physical_eq, toNat_line]
  split <;> split <;> omega

theorem physicalLine_lt (va : Word) : physicalLine va + 64 ≤ 2 ^ 30 := by
  have := physical_lt va
  rw [physicalLine_eq]
  omega

/-- An address is its line and its offset. -/
theorem physical_offset (va : Word) : physical va = physicalLine va + (lineOffset va).toNat := by
  rw [physicalLine_eq, toNat_lineOffset, physical_eq]
  split <;> omega

/-- Addresses that differ in the offset only. -/
structure SameLine (a b : Word) : Prop where
  line : a.toNat / 64 = b.toNat / 64

theorem SameLine.setIndex_eq {a b : Word} (h : SameLine a b) : setIndex a = setIndex b := by
  apply BitVec.eq_of_toNat_eq
  rw [toNat_setIndex, toNat_setIndex, h.line]

theorem SameLine.lineTag_eq {a b : Word} (h : SameLine a b) : lineTag a = lineTag b := by
  apply BitVec.eq_of_toNat_eq
  rw [toNat_lineTag, toNat_lineTag]
  have := h.line
  omega

theorem SameLine.physicalLine_eq {a b : Word} (h : SameLine a b) : physicalLine a = physicalLine b := by
  rw [physicalLine, physicalLine, h.lineTag_eq, h.setIndex_eq]

theorem cachedAddress_eq (va : Word) :
    cachedAddress va =
      if 2147483648 ≤ va.toNat then !decide (va.toNat / 536870912 = 5) else !decide (1073741824 ≤ va.toNat) := by
  have := va.isLt
  unfold cachedAddress segment
  simp only [getLsbD_31, getLsbD_30, getLsbD_29, decide_eq_true_eq]
  split
  · split
    · have : ¬va.toNat / 536870912 = 5 := by omega
      split <;> simp [Segment.cached, this]
    · split
      · have : va.toNat / 536870912 = 5 := by omega
        simp [Segment.cached, this]
      · have : ¬va.toNat / 536870912 = 5 := by omega
        simp [Segment.cached, this]
  · split
    · have : 1073741824 ≤ va.toNat := by omega
      simp [Segment.cached, this]
    · have : ¬1073741824 ≤ va.toNat := by omega
      simp [Segment.cached, this]

theorem SameLine.cachedAddress_eq {a b : Word} (h : SameLine a b) : cachedAddress a = cachedAddress b := by
  have := h.line
  rw [Machine.cachedAddress_eq, Machine.cachedAddress_eq]
  have h1 : (2147483648 ≤ a.toNat) = (2147483648 ≤ b.toNat) := by apply propext; constructor <;> intro <;> omega
  have h2 : (a.toNat / 536870912 = 5) = (b.toNat / 536870912 = 5) := by apply propext; constructor <;> intro <;> omega
  have h3 : (1073741824 ≤ a.toNat) = (1073741824 ≤ b.toNat) := by apply propext; constructor <;> intro <;> omega
  simp only [h1, h2, h3]

/-- The bytes of one word lie in one line. -/
theorem sameLine_add {va : Word} {i : Nat} (h : va.toNat % 4 + i < 4) : SameLine (va + BitVec.ofNat 32 i) va := by
  constructor
  have := va.isLt
  rw [BitVec.toNat_add, BitVec.toNat_ofNat]
  omega

theorem toNat_add_of_word {va : Word} {i : Nat} (h : va.toNat % 4 + i < 4) :
    (va + BitVec.ofNat 32 i).toNat = va.toNat + i := by
  have := va.isLt
  rw [BitVec.toNat_add, BitVec.toNat_ofNat]
  omega

theorem physical_add {va : Word} {i : Nat} (h : va.toNat % 4 + i < 4) :
    physical (va + BitVec.ofNat 32 i) = physical va + i := by
  have hl := sameLine_add h
  rw [physical_offset, physical_offset va, hl.physicalLine_eq, toNat_lineOffset, toNat_lineOffset, toNat_add_of_word h]
  omega

end Sys2Proof.Machine
end

