-- ==== Sys2Proof/Laws/Memory.lean ====
section
/-! SUPPORT. Physical memory: a read after a write, and the canonical form is kept by every operation. -/

namespace Sys2Proof.Machine

theorem Memory.read_erase (m : Memory) (k j : Nat) :
    (m.erase k).read j = if j = k then unwrittenByte else m.read j := by
  induction m with
  | nil => simp [Memory.erase, Memory.read]
  | cons c m ih =>
    obtain ⟨a, b⟩ := c
    by_cases hak : a = k <;> by_cases hjk : j = k <;> by_cases haj : a = j <;>
      simp_all [Memory.erase, Memory.read]

theorem Memory.read_insert (m : Memory) (k : Nat) (v : Byte) (j : Nat) :
    ((m.erase k).insert k v).read j = if j = k then v else m.read j := by
  induction m with
  | nil => by_cases hjk : j = k <;> simp_all [Memory.erase, Memory.insert, Memory.read, eq_comm]
  | cons c m ih =>
    obtain ⟨a, b⟩ := c
    by_cases hak : a = k
    · subst hak
      by_cases hja : j = a
      · subst hja; simpa [Memory.erase] using ih
      · have : a ≠ j := fun h => hja h.symm
        simp_all [Memory.erase, Memory.read]
    · by_cases hka : k < a
      · have h := Memory.read_erase m k j
        by_cases hjk : j = k
        · subst hjk; simp [Memory.erase, Memory.insert, Memory.read, hak, hka]
        · have : k ≠ j := fun h => hjk h.symm
          simp_all [Memory.erase, Memory.insert, Memory.read]
      · by_cases hja : a = j
        · subst hja
          simp [Memory.erase, Memory.insert, Memory.read, hak, hka]
        · rw [Memory.erase, if_neg hak, Memory.insert, if_neg hka]
          simpa [Memory.read, hja] using ih

/-- What a byte reads as after a write to a physical address. -/
theorem Memory.read_write (m : Memory) {k : Nat} (hk : k < 2 ^ 30) (v : Byte) (j : Nat) :
    (m.write k v).read j = if j = k then v else m.read j := by
  unfold Memory.write
  rw [if_pos hk]
  split
  · next h => rw [Memory.read_erase, h]
  · exact Memory.read_insert m k v j

/-- A byte at another address is kept by a write. -/
theorem Memory.read_write_ne (m : Memory) {k j : Nat} (v : Byte) (h : j ≠ k) : (m.write k v).read j = m.read j := by
  by_cases hk : k < 2 ^ 30
  · rw [Memory.read_write m hk, if_neg h]
  · rw [Memory.write, if_neg hk]

theorem Memory.read_writeBytes_outside (m : Memory) (k j : Nat) (bs : List Byte)
    (h : j < k ∨ k + bs.length ≤ j) : (m.writeBytes k bs).read j = m.read j := by
  induction bs generalizing m k with
  | nil => rfl
  | cons b bs ih =>
    simp only [List.length_cons] at h
    rw [Memory.writeBytes, ih _ _ (by omega), Memory.read_write_ne _ _ (by omega)]

/-- What a byte reads as after consecutive bytes have been written. -/
theorem Memory.read_writeBytes (m : Memory) (k : Nat) (bs : List Byte) (hk : k + bs.length ≤ 2 ^ 30) (j : Nat) :
    (m.writeBytes k bs).read j = if h : k ≤ j ∧ j < k + bs.length then bs[j - k]'(by omega) else m.read j := by
  induction bs generalizing m k with
  | nil => simp [Memory.writeBytes]
  | cons b bs ih =>
    simp only [List.length_cons] at hk
    rw [Memory.writeBytes, ih _ _ (by omega)]
    by_cases hj : j = k
    · subst hj
      rw [dif_neg (by omega), dif_pos (by simp), Memory.read_write _ (by omega), if_pos rfl]
      simp
    · by_cases hin : k + 1 ≤ j ∧ j < k + 1 + bs.length
      · rw [dif_pos hin, dif_pos (by simp only [List.length_cons]; omega)]
        have e : j - k = (j - (k + 1)) + 1 := by omega
        simp [e]
      · rw [dif_neg hin, dif_neg (by simp only [List.length_cons]; omega), Memory.read_write_ne _ _ hj]

/-! ## What the bus reads and writes -/

section Bus

variable (e : Environment) (m : Memory)

/-- A write at another address is not seen. -/
theorem Environment.read_writeByte_ne {k j : Nat} (v : Byte) (h : j ≠ k) : (e.writeByte m k v).read j = m.read j := by
  unfold Environment.writeByte
  split
  · exact Memory.read_write_ne m v h
  · rfl

/-- What a byte of memory is after a bus write: the byte written where there is RAM. -/
theorem Environment.read_writeByte {k : Nat} (hk : k < 2 ^ 30) (v : Byte) (j : Nat) :
    (e.writeByte m k v).read j = if j = k ∧ (e.region k).kind.writable = true then v else m.read j := by
  unfold Environment.writeByte
  split
  · next h => rw [Memory.read_write m hk]; simp only [h, and_true]
  · next h => simp [h]

theorem Environment.read_writeBytes_outside (k j : Nat) (bs : List Byte) (h : j < k ∨ k + bs.length ≤ j) :
    (e.writeBytes m k bs).read j = m.read j := by
  induction bs generalizing m k with
  | nil => rfl
  | cons b bs ih =>
    simp only [List.length_cons] at h
    rw [Environment.writeBytes, ih _ _ (by omega), Environment.read_writeByte_ne _ _ _ (by omega)]

/-- What a byte of memory is after consecutive bytes have reached it. -/
theorem Environment.read_writeBytes (k : Nat) (bs : List Byte) (hk : k + bs.length ≤ 2 ^ 30) (j : Nat) :
    (e.writeBytes m k bs).read j =
      if h : (k ≤ j ∧ j < k + bs.length) ∧ (e.region j).kind.writable = true then bs[j - k]'(by omega) else m.read j := by
  induction bs generalizing m k with
  | nil =>
    rw [dif_neg]
    · rfl
    · rintro ⟨⟨h1, h2⟩, -⟩
      simp only [List.length_nil] at h2
      omega
  | cons b bs ih =>
    simp only [List.length_cons] at hk
    rw [Environment.writeBytes, ih _ _ (by omega)]
    by_cases hw : (e.region j).kind.writable = true
    · simp only [hw, and_true]
      by_cases hj : j = k
      · subst hj
        rw [dif_neg (by omega), dif_pos (by simp), Environment.read_writeByte _ _ (by omega), if_pos ⟨rfl, hw⟩]
        simp
      · by_cases hin : k + 1 ≤ j ∧ j < k + 1 + bs.length
        · rw [dif_pos hin, dif_pos (by simp only [List.length_cons]; omega)]
          have e : j - k = (j - (k + 1)) + 1 := by omega
          simp [e]
        · rw [dif_neg hin, dif_neg (by simp only [List.length_cons]; omega), Environment.read_writeByte_ne _ _ _ hj]
    · rw [dif_neg (fun h => hw h.2), dif_neg (fun h => hw h.2), Environment.read_writeByte _ _ (by omega), if_neg]
      rintro ⟨rfl, h⟩
      exact hw h

theorem Environment.getElem_readLine (k i : Nat) (h : i < 64) : (e.readLine m k)[i] = e.readByte m (k + i) := by
  simp [Environment.readLine]

/-- What a byte of memory is after a line has reached it. -/
theorem Environment.read_writeLine (k : Nat) (d : Line) (hk : k + 64 ≤ 2 ^ 30) (j : Nat) :
    (e.writeLine m k d).read j =
      if h : (k ≤ j ∧ j < k + 64) ∧ (e.region j).kind.writable = true then d[j - k]'(by omega) else m.read j := by
  rw [Environment.writeLine, Environment.read_writeBytes _ _ _ _ (by simpa using hk)]
  simp only [Vector.length_toList, Vector.getElem_toList]

/-- RAM reads as memory holds it. -/
theorem Environment.readByte_of_holds {a : Nat} (h : (e.region a).kind.holds = true) : e.readByte m a = m.read a := by
  simp [Environment.readByte, h]

/-- What takes writes also gives them back. -/
theorem RegionKind.holds_of_writable {k : RegionKind} (h : k.writable = true) : k.holds = true := by
  cases k <;> first | rfl | cases h

/-- A bus read sees memory at its own address only. -/
theorem Environment.readByte_congr {m' : Memory} {a : Nat} (h : m'.read a = m.read a) : e.readByte m' a = e.readByte m a := by
  simp only [Environment.readByte, h]

theorem Environment.read_scramble_outside (n : Nat) (as : List Nat) (j : Nat) (h : j ∉ as) :
    (e.scramble n m as).read j = m.read j := by
  induction as generalizing m with
  | nil => rfl
  | cons a as ih =>
    simp only [List.mem_cons, not_or] at h
    rw [Environment.scramble, ih _ h.2, Environment.read_writeByte_ne _ _ _ h.1]

end Bus

/-! ## The canonical form -/

theorem Memory.wfFrom_mono {m : Memory} {lo lo' : Nat} (h : m.wfFrom lo = true) (hl : lo' ≤ lo) :
    m.wfFrom lo' = true := by
  cases m with
  | nil => rfl
  | cons c m =>
    obtain ⟨a, b⟩ := c
    simp only [Memory.wfFrom, Bool.and_eq_true, decide_eq_true_eq] at h ⊢
    exact ⟨⟨⟨hl.trans h.1.1.1, h.1.1.2⟩, h.1.2⟩, h.2⟩

theorem Memory.wfFrom_erase {m : Memory} {lo : Nat} (k : Nat) (h : m.wfFrom lo = true) :
    (m.erase k).wfFrom lo = true := by
  induction m generalizing lo with
  | nil => rfl
  | cons c m ih =>
    obtain ⟨a, b⟩ := c
    simp only [Memory.wfFrom, Bool.and_eq_true, decide_eq_true_eq] at h
    by_cases hak : a = k
    · rw [Memory.erase, if_pos hak]
      exact ih (Memory.wfFrom_mono h.2 (by omega))
    · rw [Memory.erase, if_neg hak]
      simp only [Memory.wfFrom, Bool.and_eq_true, decide_eq_true_eq]
      exact ⟨h.1, ih h.2⟩

theorem Memory.wfFrom_insert {m : Memory} {lo k : Nat} {v : Byte} (h : (m.erase k).wfFrom lo = true) (hl : lo ≤ k)
    (hk : k < 2 ^ 30) (hv : v ≠ unwrittenByte) : ((m.erase k).insert k v).wfFrom lo = true := by
  induction m generalizing lo with
  | nil =>
    simp only [Memory.erase, Memory.insert, Memory.wfFrom, Bool.and_eq_true, decide_eq_true_eq]
    exact ⟨⟨⟨hl, hk⟩, hv⟩, trivial⟩
  | cons c m ih =>
    obtain ⟨a, b⟩ := c
    by_cases hak : a = k
    · rw [Memory.erase, if_pos hak] at h ⊢
      exact ih h hl
    · rw [Memory.erase, if_neg hak] at h ⊢
      simp only [Memory.wfFrom, Bool.and_eq_true, decide_eq_true_eq] at h
      by_cases hka : k < a
      · rw [Memory.insert, if_pos hka]
        simp only [Memory.wfFrom, Bool.and_eq_true, decide_eq_true_eq]
        exact ⟨⟨⟨hl, hk⟩, hv⟩, ⟨⟨by omega, h.1.1.2⟩, h.1.2⟩, h.2⟩
      · rw [Memory.insert, if_neg hka]
        simp only [Memory.wfFrom, Bool.and_eq_true, decide_eq_true_eq]
        exact ⟨h.1, ih h.2 (by omega)⟩

/-- A write keeps the canonical form. -/
theorem Memory.wf_write {m : Memory} (h : m.wf = true) (k : Nat) (v : Byte) : (m.write k v).wf = true := by
  unfold Memory.write
  split
  · next hk =>
    split
    · exact Memory.wfFrom_erase k h
    · next hv => exact Memory.wfFrom_insert (Memory.wfFrom_erase k h) (Nat.zero_le _) hk hv
  · exact h

theorem Memory.wf_writeBytes {m : Memory} (h : m.wf = true) (k : Nat) (bs : List Byte) :
    (m.writeBytes k bs).wf = true := by
  induction bs generalizing m k with
  | nil => exact h
  | cons b bs ih => exact ih (Memory.wf_write h k b) _

/-- A bus write keeps the canonical form. -/
theorem Environment.wf_writeByte (e : Environment) {m : Memory} (h : m.wf = true) (k : Nat) (v : Byte) :
    (e.writeByte m k v).wf = true := by
  unfold Environment.writeByte
  split
  · exact Memory.wf_write h k v
  · exact h

theorem Environment.wf_writeBytes (e : Environment) {m : Memory} (h : m.wf = true) (k : Nat) (bs : List Byte) :
    (e.writeBytes m k bs).wf = true := by
  induction bs generalizing m k with
  | nil => exact h
  | cons b bs ih => exact ih (e.wf_writeByte h k b) _

theorem Environment.wf_writeLine (e : Environment) {m : Memory} (h : m.wf = true) (k : Nat) (d : Line) :
    (e.writeLine m k d).wf = true :=
  e.wf_writeBytes h _ _

theorem Environment.wf_scramble (e : Environment) {m : Memory} (h : m.wf = true) (n : Nat) (as : List Nat) :
    (e.scramble n m as).wf = true := by
  induction as generalizing m with
  | nil => exact h
  | cons a as ih => exact ih (e.wf_writeByte h _ _)

end Sys2Proof.Machine
end

