-- ==== Sys2Proof/Laws/State.lean ====
section
/-! SUPPORT. One lemma per field of the state for each update of the state, true by computation. -/

namespace Sys2Proof.Machine

variable (s : State)

/-! ## setReg -/

@[simp] theorem setReg_regs (i : Reg) (v : Word) : (s.setReg i v).regs = if i = 0#5 then s.regs else s.regs.set i.toNat v i.isLt := rfl
@[simp] theorem setReg_pc (i : Reg) (v : Word) : (s.setReg i v).pc = s.pc := rfl
@[simp] theorem setReg_npc (i : Reg) (v : Word) : (s.setReg i v).npc = s.npc := rfl
@[simp] theorem setReg_inDelaySlot (i : Reg) (v : Word) : (s.setReg i v).inDelaySlot = s.inDelaySlot := rfl
@[simp] theorem setReg_hi (i : Reg) (v : Word) : (s.setReg i v).hi = s.hi := rfl
@[simp] theorem setReg_lo (i : Reg) (v : Word) : (s.setReg i v).lo = s.lo := rfl
@[simp] theorem setReg_llBit (i : Reg) (v : Word) : (s.setReg i v).llBit = s.llBit := rfl
@[simp] theorem setReg_cp0 (i : Reg) (v : Word) : (s.setReg i v).cp0 = s.cp0 := rfl
@[simp] theorem setReg_icache (i : Reg) (v : Word) : (s.setReg i v).icache = s.icache := rfl
@[simp] theorem setReg_dcache (i : Reg) (v : Word) : (s.setReg i v).dcache = s.dcache := rfl
@[simp] theorem setReg_writeback (i : Reg) (v : Word) : (s.setReg i v).writeback = s.writeback := rfl
@[simp] theorem setReg_stores (i : Reg) (v : Word) : (s.setReg i v).stores = s.stores := rfl
@[simp] theorem setReg_mem (i : Reg) (v : Word) : (s.setReg i v).mem = s.mem := rfl
@[simp] theorem setReg_cop1 (i : Reg) (v : Word) : (s.setReg i v).cop1 = s.cop1 := rfl
@[simp] theorem setReg_cop2 (i : Reg) (v : Word) : (s.setReg i v).cop2 = s.cop2 := rfl
@[simp] theorem setReg_cop3 (i : Reg) (v : Word) : (s.setReg i v).cop3 = s.cop3 := rfl
@[simp] theorem setReg_env (i : Reg) (v : Word) : (s.setReg i v).env = s.env := rfl
@[simp] theorem setReg_last1 (i : Reg) (v : Word) : (s.setReg i v).last1 = s.last1 := rfl
@[simp] theorem setReg_last2 (i : Reg) (v : Word) : (s.setReg i v).last2 = s.last2 := rfl
@[simp] theorem setReg_freeCount (i : Reg) (v : Word) : (s.setReg i v).freeCount = s.freeCount := rfl

/-! ## setCop -/

@[simp] theorem setCop_regs (z : Cop) (c : Coprocessor) : (s.setCop z c).regs = s.regs := rfl
@[simp] theorem setCop_pc (z : Cop) (c : Coprocessor) : (s.setCop z c).pc = s.pc := rfl
@[simp] theorem setCop_npc (z : Cop) (c : Coprocessor) : (s.setCop z c).npc = s.npc := rfl
@[simp] theorem setCop_inDelaySlot (z : Cop) (c : Coprocessor) : (s.setCop z c).inDelaySlot = s.inDelaySlot := rfl
@[simp] theorem setCop_hi (z : Cop) (c : Coprocessor) : (s.setCop z c).hi = s.hi := rfl
@[simp] theorem setCop_lo (z : Cop) (c : Coprocessor) : (s.setCop z c).lo = s.lo := rfl
@[simp] theorem setCop_llBit (z : Cop) (c : Coprocessor) : (s.setCop z c).llBit = s.llBit := rfl
@[simp] theorem setCop_cp0 (z : Cop) (c : Coprocessor) : (s.setCop z c).cp0 = s.cp0 := rfl
@[simp] theorem setCop_icache (z : Cop) (c : Coprocessor) : (s.setCop z c).icache = s.icache := rfl
@[simp] theorem setCop_dcache (z : Cop) (c : Coprocessor) : (s.setCop z c).dcache = s.dcache := rfl
@[simp] theorem setCop_writeback (z : Cop) (c : Coprocessor) : (s.setCop z c).writeback = s.writeback := rfl
@[simp] theorem setCop_stores (z : Cop) (c : Coprocessor) : (s.setCop z c).stores = s.stores := rfl
@[simp] theorem setCop_mem (z : Cop) (c : Coprocessor) : (s.setCop z c).mem = s.mem := rfl
@[simp] theorem setCop_env (z : Cop) (c : Coprocessor) : (s.setCop z c).env = s.env := rfl
@[simp] theorem setCop_last1 (z : Cop) (c : Coprocessor) : (s.setCop z c).last1 = s.last1 := rfl
@[simp] theorem setCop_last2 (z : Cop) (c : Coprocessor) : (s.setCop z c).last2 = s.last2 := rfl
@[simp] theorem setCop_freeCount (z : Cop) (c : Coprocessor) : (s.setCop z c).freeCount = s.freeCount := rfl

/-! ## setCpr -/

@[simp] theorem setCpr_regs (z : Cop) (n : Reg) (v : Word) : (s.setCpr z n v).regs = s.regs := rfl
@[simp] theorem setCpr_pc (z : Cop) (n : Reg) (v : Word) : (s.setCpr z n v).pc = s.pc := rfl
@[simp] theorem setCpr_npc (z : Cop) (n : Reg) (v : Word) : (s.setCpr z n v).npc = s.npc := rfl
@[simp] theorem setCpr_inDelaySlot (z : Cop) (n : Reg) (v : Word) : (s.setCpr z n v).inDelaySlot = s.inDelaySlot := rfl
@[simp] theorem setCpr_hi (z : Cop) (n : Reg) (v : Word) : (s.setCpr z n v).hi = s.hi := rfl
@[simp] theorem setCpr_lo (z : Cop) (n : Reg) (v : Word) : (s.setCpr z n v).lo = s.lo := rfl
@[simp] theorem setCpr_llBit (z : Cop) (n : Reg) (v : Word) : (s.setCpr z n v).llBit = s.llBit := rfl
@[simp] theorem setCpr_cp0 (z : Cop) (n : Reg) (v : Word) : (s.setCpr z n v).cp0 = s.cp0 := rfl
@[simp] theorem setCpr_icache (z : Cop) (n : Reg) (v : Word) : (s.setCpr z n v).icache = s.icache := rfl
@[simp] theorem setCpr_dcache (z : Cop) (n : Reg) (v : Word) : (s.setCpr z n v).dcache = s.dcache := rfl
@[simp] theorem setCpr_writeback (z : Cop) (n : Reg) (v : Word) : (s.setCpr z n v).writeback = s.writeback := rfl
@[simp] theorem setCpr_stores (z : Cop) (n : Reg) (v : Word) : (s.setCpr z n v).stores = s.stores := rfl
@[simp] theorem setCpr_mem (z : Cop) (n : Reg) (v : Word) : (s.setCpr z n v).mem = s.mem := rfl
@[simp] theorem setCpr_env (z : Cop) (n : Reg) (v : Word) : (s.setCpr z n v).env = s.env := rfl
@[simp] theorem setCpr_last1 (z : Cop) (n : Reg) (v : Word) : (s.setCpr z n v).last1 = s.last1 := rfl
@[simp] theorem setCpr_last2 (z : Cop) (n : Reg) (v : Word) : (s.setCpr z n v).last2 = s.last2 := rfl
@[simp] theorem setCpr_freeCount (z : Cop) (n : Reg) (v : Word) : (s.setCpr z n v).freeCount = s.freeCount := rfl

/-! ## setAcc -/

@[simp] theorem setAcc_regs (v : BitVec 64) : (s.setAcc v).regs = s.regs := rfl
@[simp] theorem setAcc_pc (v : BitVec 64) : (s.setAcc v).pc = s.pc := rfl
@[simp] theorem setAcc_npc (v : BitVec 64) : (s.setAcc v).npc = s.npc := rfl
@[simp] theorem setAcc_inDelaySlot (v : BitVec 64) : (s.setAcc v).inDelaySlot = s.inDelaySlot := rfl
@[simp] theorem setAcc_hi (v : BitVec 64) : (s.setAcc v).hi = v.extractLsb' 32 32 := rfl
@[simp] theorem setAcc_lo (v : BitVec 64) : (s.setAcc v).lo = v.extractLsb' 0 32 := rfl
@[simp] theorem setAcc_llBit (v : BitVec 64) : (s.setAcc v).llBit = s.llBit := rfl
@[simp] theorem setAcc_cp0 (v : BitVec 64) : (s.setAcc v).cp0 = s.cp0 := rfl
@[simp] theorem setAcc_icache (v : BitVec 64) : (s.setAcc v).icache = s.icache := rfl
@[simp] theorem setAcc_dcache (v : BitVec 64) : (s.setAcc v).dcache = s.dcache := rfl
@[simp] theorem setAcc_writeback (v : BitVec 64) : (s.setAcc v).writeback = s.writeback := rfl
@[simp] theorem setAcc_stores (v : BitVec 64) : (s.setAcc v).stores = s.stores := rfl
@[simp] theorem setAcc_mem (v : BitVec 64) : (s.setAcc v).mem = s.mem := rfl
@[simp] theorem setAcc_cop1 (v : BitVec 64) : (s.setAcc v).cop1 = s.cop1 := rfl
@[simp] theorem setAcc_cop2 (v : BitVec 64) : (s.setAcc v).cop2 = s.cop2 := rfl
@[simp] theorem setAcc_cop3 (v : BitVec 64) : (s.setAcc v).cop3 = s.cop3 := rfl
@[simp] theorem setAcc_env (v : BitVec 64) : (s.setAcc v).env = s.env := rfl
@[simp] theorem setAcc_last1 (v : BitVec 64) : (s.setAcc v).last1 = s.last1 := rfl
@[simp] theorem setAcc_last2 (v : BitVec 64) : (s.setAcc v).last2 = s.last2 := rfl
@[simp] theorem setAcc_freeCount (v : BitVec 64) : (s.setAcc v).freeCount = s.freeCount := rfl

/-! ## openHiLo -/

@[simp] theorem openHiLo_regs : (s.openHiLo).regs = s.regs := rfl
@[simp] theorem openHiLo_pc : (s.openHiLo).pc = s.pc := rfl
@[simp] theorem openHiLo_npc : (s.openHiLo).npc = s.npc := rfl
@[simp] theorem openHiLo_inDelaySlot : (s.openHiLo).inDelaySlot = s.inDelaySlot := rfl
@[simp] theorem openHiLo_hi : (s.openHiLo).hi = s.freeWord := rfl
@[simp] theorem openHiLo_lo : (s.openHiLo).lo = s.freeWord2 := rfl
@[simp] theorem openHiLo_llBit : (s.openHiLo).llBit = s.llBit := rfl
@[simp] theorem openHiLo_cp0 : (s.openHiLo).cp0 = s.cp0 := rfl
@[simp] theorem openHiLo_icache : (s.openHiLo).icache = s.icache := rfl
@[simp] theorem openHiLo_dcache : (s.openHiLo).dcache = s.dcache := rfl
@[simp] theorem openHiLo_writeback : (s.openHiLo).writeback = s.writeback := rfl
@[simp] theorem openHiLo_stores : (s.openHiLo).stores = s.stores := rfl
@[simp] theorem openHiLo_mem : (s.openHiLo).mem = s.mem := rfl
@[simp] theorem openHiLo_cop1 : (s.openHiLo).cop1 = s.cop1 := rfl
@[simp] theorem openHiLo_cop2 : (s.openHiLo).cop2 = s.cop2 := rfl
@[simp] theorem openHiLo_cop3 : (s.openHiLo).cop3 = s.cop3 := rfl
@[simp] theorem openHiLo_env : (s.openHiLo).env = s.env := rfl
@[simp] theorem openHiLo_last1 : (s.openHiLo).last1 = s.last1 := rfl
@[simp] theorem openHiLo_last2 : (s.openHiLo).last2 = s.last2 := rfl
@[simp] theorem openHiLo_freeCount : (s.openHiLo).freeCount = s.freeCount := rfl

/-! ## drawn -/

@[simp] theorem drawn_regs (n : Nat) : (s.drawn n).regs = s.regs := rfl
@[simp] theorem drawn_pc (n : Nat) : (s.drawn n).pc = s.pc := rfl
@[simp] theorem drawn_npc (n : Nat) : (s.drawn n).npc = s.npc := rfl
@[simp] theorem drawn_inDelaySlot (n : Nat) : (s.drawn n).inDelaySlot = s.inDelaySlot := rfl
@[simp] theorem drawn_hi (n : Nat) : (s.drawn n).hi = s.hi := rfl
@[simp] theorem drawn_lo (n : Nat) : (s.drawn n).lo = s.lo := rfl
@[simp] theorem drawn_llBit (n : Nat) : (s.drawn n).llBit = s.llBit := rfl
@[simp] theorem drawn_cp0 (n : Nat) : (s.drawn n).cp0 = s.cp0 := rfl
@[simp] theorem drawn_icache (n : Nat) : (s.drawn n).icache = s.icache := rfl
@[simp] theorem drawn_dcache (n : Nat) : (s.drawn n).dcache = s.dcache := rfl
@[simp] theorem drawn_writeback (n : Nat) : (s.drawn n).writeback = s.writeback := rfl
@[simp] theorem drawn_stores (n : Nat) : (s.drawn n).stores = s.stores := rfl
@[simp] theorem drawn_mem (n : Nat) : (s.drawn n).mem = s.mem := rfl
@[simp] theorem drawn_cop1 (n : Nat) : (s.drawn n).cop1 = s.cop1 := rfl
@[simp] theorem drawn_cop2 (n : Nat) : (s.drawn n).cop2 = s.cop2 := rfl
@[simp] theorem drawn_cop3 (n : Nat) : (s.drawn n).cop3 = s.cop3 := rfl
@[simp] theorem drawn_env (n : Nat) : (s.drawn n).env = s.env := rfl
@[simp] theorem drawn_last1 (n : Nat) : (s.drawn n).last1 = s.last1 := rfl
@[simp] theorem drawn_last2 (n : Nat) : (s.drawn n).last2 = s.last2 := rfl
@[simp] theorem drawn_freeCount (n : Nat) : (s.drawn n).freeCount = s.freeCount + n := rfl

/-! ## retire -/

@[simp] theorem retire_regs (k : Retired) : (s.retire k).regs = s.regs := rfl
@[simp] theorem retire_pc (k : Retired) : (s.retire k).pc = s.npc := rfl
@[simp] theorem retire_npc (k : Retired) : (s.retire k).npc = s.npc + 4 := rfl
@[simp] theorem retire_inDelaySlot (k : Retired) : (s.retire k).inDelaySlot = false := rfl
@[simp] theorem retire_hi (k : Retired) : (s.retire k).hi = s.hi := rfl
@[simp] theorem retire_lo (k : Retired) : (s.retire k).lo = s.lo := rfl
@[simp] theorem retire_llBit (k : Retired) : (s.retire k).llBit = s.llBit := rfl
@[simp] theorem retire_cp0 (k : Retired) : (s.retire k).cp0 = s.cp0 := rfl
@[simp] theorem retire_icache (k : Retired) : (s.retire k).icache = s.icache := rfl
@[simp] theorem retire_dcache (k : Retired) : (s.retire k).dcache = s.dcache := rfl
@[simp] theorem retire_writeback (k : Retired) : (s.retire k).writeback = s.writeback := rfl
@[simp] theorem retire_stores (k : Retired) : (s.retire k).stores = s.stores := rfl
@[simp] theorem retire_mem (k : Retired) : (s.retire k).mem = s.mem := rfl
@[simp] theorem retire_cop1 (k : Retired) : (s.retire k).cop1 = s.cop1 := rfl
@[simp] theorem retire_cop2 (k : Retired) : (s.retire k).cop2 = s.cop2 := rfl
@[simp] theorem retire_cop3 (k : Retired) : (s.retire k).cop3 = s.cop3 := rfl
@[simp] theorem retire_env (k : Retired) : (s.retire k).env = s.env := rfl
@[simp] theorem retire_last1 (k : Retired) : (s.retire k).last1 = k := rfl
@[simp] theorem retire_last2 (k : Retired) : (s.retire k).last2 = s.last1 := rfl
@[simp] theorem retire_freeCount (k : Retired) : (s.retire k).freeCount = s.freeCount := rfl

/-! ## transfer -/

@[simp] theorem transfer_regs (v : Word) : (s.transfer v).regs = s.regs := rfl
@[simp] theorem transfer_pc (v : Word) : (s.transfer v).pc = s.npc := rfl
@[simp] theorem transfer_npc (v : Word) : (s.transfer v).npc = v := rfl
@[simp] theorem transfer_inDelaySlot (v : Word) : (s.transfer v).inDelaySlot = true := rfl
@[simp] theorem transfer_hi (v : Word) : (s.transfer v).hi = s.hi := rfl
@[simp] theorem transfer_lo (v : Word) : (s.transfer v).lo = s.lo := rfl
@[simp] theorem transfer_llBit (v : Word) : (s.transfer v).llBit = s.llBit := rfl
@[simp] theorem transfer_cp0 (v : Word) : (s.transfer v).cp0 = s.cp0 := rfl
@[simp] theorem transfer_icache (v : Word) : (s.transfer v).icache = s.icache := rfl
@[simp] theorem transfer_dcache (v : Word) : (s.transfer v).dcache = s.dcache := rfl
@[simp] theorem transfer_writeback (v : Word) : (s.transfer v).writeback = s.writeback := rfl
@[simp] theorem transfer_stores (v : Word) : (s.transfer v).stores = s.stores := rfl
@[simp] theorem transfer_mem (v : Word) : (s.transfer v).mem = s.mem := rfl
@[simp] theorem transfer_cop1 (v : Word) : (s.transfer v).cop1 = s.cop1 := rfl
@[simp] theorem transfer_cop2 (v : Word) : (s.transfer v).cop2 = s.cop2 := rfl
@[simp] theorem transfer_cop3 (v : Word) : (s.transfer v).cop3 = s.cop3 := rfl
@[simp] theorem transfer_env (v : Word) : (s.transfer v).env = s.env := rfl
@[simp] theorem transfer_last1 (v : Word) : (s.transfer v).last1 = .other := rfl
@[simp] theorem transfer_last2 (v : Word) : (s.transfer v).last2 = s.last1 := rfl
@[simp] theorem transfer_freeCount (v : Word) : (s.transfer v).freeCount = s.freeCount := rfl

/-! ## fallThrough -/

@[simp] theorem fallThrough_regs : (s.fallThrough).regs = s.regs := rfl
@[simp] theorem fallThrough_pc : (s.fallThrough).pc = s.npc := rfl
@[simp] theorem fallThrough_npc : (s.fallThrough).npc = s.npc + 4 := rfl
@[simp] theorem fallThrough_inDelaySlot : (s.fallThrough).inDelaySlot = true := rfl
@[simp] theorem fallThrough_hi : (s.fallThrough).hi = s.hi := rfl
@[simp] theorem fallThrough_lo : (s.fallThrough).lo = s.lo := rfl
@[simp] theorem fallThrough_llBit : (s.fallThrough).llBit = s.llBit := rfl
@[simp] theorem fallThrough_cp0 : (s.fallThrough).cp0 = s.cp0 := rfl
@[simp] theorem fallThrough_icache : (s.fallThrough).icache = s.icache := rfl
@[simp] theorem fallThrough_dcache : (s.fallThrough).dcache = s.dcache := rfl
@[simp] theorem fallThrough_writeback : (s.fallThrough).writeback = s.writeback := rfl
@[simp] theorem fallThrough_stores : (s.fallThrough).stores = s.stores := rfl
@[simp] theorem fallThrough_mem : (s.fallThrough).mem = s.mem := rfl
@[simp] theorem fallThrough_cop1 : (s.fallThrough).cop1 = s.cop1 := rfl
@[simp] theorem fallThrough_cop2 : (s.fallThrough).cop2 = s.cop2 := rfl
@[simp] theorem fallThrough_cop3 : (s.fallThrough).cop3 = s.cop3 := rfl
@[simp] theorem fallThrough_env : (s.fallThrough).env = s.env := rfl
@[simp] theorem fallThrough_last1 : (s.fallThrough).last1 = .other := rfl
@[simp] theorem fallThrough_last2 : (s.fallThrough).last2 = s.last1 := rfl
@[simp] theorem fallThrough_freeCount : (s.fallThrough).freeCount = s.freeCount := rfl

/-! ## nullify -/

@[simp] theorem nullify_regs : (s.nullify).regs = s.regs := rfl
@[simp] theorem nullify_pc : (s.nullify).pc = s.npc + 4 := rfl
@[simp] theorem nullify_npc : (s.nullify).npc = s.npc + 8 := rfl
@[simp] theorem nullify_inDelaySlot : (s.nullify).inDelaySlot = false := rfl
@[simp] theorem nullify_hi : (s.nullify).hi = s.hi := rfl
@[simp] theorem nullify_lo : (s.nullify).lo = s.lo := rfl
@[simp] theorem nullify_llBit : (s.nullify).llBit = s.llBit := rfl
@[simp] theorem nullify_cp0 : (s.nullify).cp0 = s.cp0 := rfl
@[simp] theorem nullify_icache : (s.nullify).icache = s.icache := rfl
@[simp] theorem nullify_dcache : (s.nullify).dcache = s.dcache := rfl
@[simp] theorem nullify_writeback : (s.nullify).writeback = s.writeback := rfl
@[simp] theorem nullify_stores : (s.nullify).stores = s.stores := rfl
@[simp] theorem nullify_mem : (s.nullify).mem = s.mem := rfl
@[simp] theorem nullify_cop1 : (s.nullify).cop1 = s.cop1 := rfl
@[simp] theorem nullify_cop2 : (s.nullify).cop2 = s.cop2 := rfl
@[simp] theorem nullify_cop3 : (s.nullify).cop3 = s.cop3 := rfl
@[simp] theorem nullify_env : (s.nullify).env = s.env := rfl
@[simp] theorem nullify_last1 : (s.nullify).last1 = .other := rfl
@[simp] theorem nullify_last2 : (s.nullify).last2 = s.last1 := rfl
@[simp] theorem nullify_freeCount : (s.nullify).freeCount = s.freeCount := rfl

/-! ## branchLink -/

@[simp] theorem branchLink_regs (b : Bool) : (s.branchLink b).regs = (s.setReg 31 (if b || s.freeBit then linkValue s.pc else s.reg 31)).regs := rfl
@[simp] theorem branchLink_pc (b : Bool) : (s.branchLink b).pc = s.pc := rfl
@[simp] theorem branchLink_npc (b : Bool) : (s.branchLink b).npc = s.npc := rfl
@[simp] theorem branchLink_inDelaySlot (b : Bool) : (s.branchLink b).inDelaySlot = s.inDelaySlot := rfl
@[simp] theorem branchLink_hi (b : Bool) : (s.branchLink b).hi = s.hi := rfl
@[simp] theorem branchLink_lo (b : Bool) : (s.branchLink b).lo = s.lo := rfl
@[simp] theorem branchLink_llBit (b : Bool) : (s.branchLink b).llBit = s.llBit := rfl
@[simp] theorem branchLink_cp0 (b : Bool) : (s.branchLink b).cp0 = s.cp0 := rfl
@[simp] theorem branchLink_icache (b : Bool) : (s.branchLink b).icache = s.icache := rfl
@[simp] theorem branchLink_dcache (b : Bool) : (s.branchLink b).dcache = s.dcache := rfl
@[simp] theorem branchLink_writeback (b : Bool) : (s.branchLink b).writeback = s.writeback := rfl
@[simp] theorem branchLink_stores (b : Bool) : (s.branchLink b).stores = s.stores := rfl
@[simp] theorem branchLink_mem (b : Bool) : (s.branchLink b).mem = s.mem := rfl
@[simp] theorem branchLink_cop1 (b : Bool) : (s.branchLink b).cop1 = s.cop1 := rfl
@[simp] theorem branchLink_cop2 (b : Bool) : (s.branchLink b).cop2 = s.cop2 := rfl
@[simp] theorem branchLink_cop3 (b : Bool) : (s.branchLink b).cop3 = s.cop3 := rfl
@[simp] theorem branchLink_env (b : Bool) : (s.branchLink b).env = s.env := rfl
@[simp] theorem branchLink_last1 (b : Bool) : (s.branchLink b).last1 = s.last1 := rfl
@[simp] theorem branchLink_last2 (b : Bool) : (s.branchLink b).last2 = s.last2 := rfl
@[simp] theorem branchLink_freeCount (b : Bool) : (s.branchLink b).freeCount = s.freeCount + (if b then 0 else 1) := rfl

/-! ## takeException -/

@[simp] theorem takeException_regs (e : GeneralException) : (takeException e s).regs = s.regs := rfl
@[simp] theorem takeException_pc (e : GeneralException) : (takeException e s).pc = s.vector := rfl
@[simp] theorem takeException_npc (e : GeneralException) : (takeException e s).npc = s.vector + 4 := rfl
@[simp] theorem takeException_inDelaySlot (e : GeneralException) : (takeException e s).inDelaySlot = false := rfl
@[simp] theorem takeException_hi (e : GeneralException) : (takeException e s).hi = s.hi := rfl
@[simp] theorem takeException_lo (e : GeneralException) : (takeException e s).lo = s.lo := rfl
@[simp] theorem takeException_llBit (e : GeneralException) : (takeException e s).llBit = s.llBit := rfl
@[simp] theorem takeException_icache (e : GeneralException) : (takeException e s).icache = s.icache := rfl
@[simp] theorem takeException_dcache (e : GeneralException) : (takeException e s).dcache = s.dcache := rfl
@[simp] theorem takeException_writeback (e : GeneralException) : (takeException e s).writeback = s.writeback := rfl
@[simp] theorem takeException_stores (e : GeneralException) : (takeException e s).stores = s.stores := rfl
@[simp] theorem takeException_mem (e : GeneralException) : (takeException e s).mem = s.mem := rfl
@[simp] theorem takeException_cop1 (e : GeneralException) : (takeException e s).cop1 = s.cop1 := rfl
@[simp] theorem takeException_cop2 (e : GeneralException) : (takeException e s).cop2 = s.cop2 := rfl
@[simp] theorem takeException_cop3 (e : GeneralException) : (takeException e s).cop3 = s.cop3 := rfl
@[simp] theorem takeException_env (e : GeneralException) : (takeException e s).env = s.env := rfl
@[simp] theorem takeException_last1 (e : GeneralException) : (takeException e s).last1 = .entry := rfl
@[simp] theorem takeException_last2 (e : GeneralException) : (takeException e s).last2 = .entry := rfl
@[simp] theorem takeException_freeCount (e : GeneralException) : (takeException e s).freeCount = s.freeCount + 1 := rfl

/-! ## exceptionReturn -/

@[simp] theorem exceptionReturn_regs : (exceptionReturn s).regs = s.regs := rfl
@[simp] theorem exceptionReturn_pc : (exceptionReturn s).pc = s.returnAddress := rfl
@[simp] theorem exceptionReturn_npc : (exceptionReturn s).npc = s.returnAddress + 4 := rfl
@[simp] theorem exceptionReturn_inDelaySlot : (exceptionReturn s).inDelaySlot = false := rfl
@[simp] theorem exceptionReturn_hi : (exceptionReturn s).hi = s.hi := rfl
@[simp] theorem exceptionReturn_lo : (exceptionReturn s).lo = s.lo := rfl
@[simp] theorem exceptionReturn_llBit : (exceptionReturn s).llBit = false := rfl
@[simp] theorem exceptionReturn_icache : (exceptionReturn s).icache = s.icache := rfl
@[simp] theorem exceptionReturn_dcache : (exceptionReturn s).dcache = s.dcache := rfl
@[simp] theorem exceptionReturn_writeback : (exceptionReturn s).writeback = s.writeback := rfl
@[simp] theorem exceptionReturn_stores : (exceptionReturn s).stores = s.stores := rfl
@[simp] theorem exceptionReturn_mem : (exceptionReturn s).mem = s.mem := rfl
@[simp] theorem exceptionReturn_cop1 : (exceptionReturn s).cop1 = s.cop1 := rfl
@[simp] theorem exceptionReturn_cop2 : (exceptionReturn s).cop2 = s.cop2 := rfl
@[simp] theorem exceptionReturn_cop3 : (exceptionReturn s).cop3 = s.cop3 := rfl
@[simp] theorem exceptionReturn_env : (exceptionReturn s).env = s.env := rfl
@[simp] theorem exceptionReturn_last1 : (exceptionReturn s).last1 = .other := rfl
@[simp] theorem exceptionReturn_last2 : (exceptionReturn s).last2 = s.last1 := rfl
@[simp] theorem exceptionReturn_freeCount : (exceptionReturn s).freeCount = s.freeCount := rfl

/-! ## setIset -/

@[simp] theorem setIset_regs (va : Word) (c : CacheSet Unit) : (s.setIset va c).regs = s.regs := rfl
@[simp] theorem setIset_pc (va : Word) (c : CacheSet Unit) : (s.setIset va c).pc = s.pc := rfl
@[simp] theorem setIset_npc (va : Word) (c : CacheSet Unit) : (s.setIset va c).npc = s.npc := rfl
@[simp] theorem setIset_inDelaySlot (va : Word) (c : CacheSet Unit) : (s.setIset va c).inDelaySlot = s.inDelaySlot := rfl
@[simp] theorem setIset_hi (va : Word) (c : CacheSet Unit) : (s.setIset va c).hi = s.hi := rfl
@[simp] theorem setIset_lo (va : Word) (c : CacheSet Unit) : (s.setIset va c).lo = s.lo := rfl
@[simp] theorem setIset_llBit (va : Word) (c : CacheSet Unit) : (s.setIset va c).llBit = s.llBit := rfl
@[simp] theorem setIset_cp0 (va : Word) (c : CacheSet Unit) : (s.setIset va c).cp0 = s.cp0 := rfl
@[simp] theorem setIset_icache (va : Word) (c : CacheSet Unit) : (s.setIset va c).icache = s.icache.set (setIndex va).toNat c (setIndex va).isLt := rfl
@[simp] theorem setIset_dcache (va : Word) (c : CacheSet Unit) : (s.setIset va c).dcache = s.dcache := rfl
@[simp] theorem setIset_writeback (va : Word) (c : CacheSet Unit) : (s.setIset va c).writeback = s.writeback := rfl
@[simp] theorem setIset_stores (va : Word) (c : CacheSet Unit) : (s.setIset va c).stores = s.stores := rfl
@[simp] theorem setIset_mem (va : Word) (c : CacheSet Unit) : (s.setIset va c).mem = s.mem := rfl
@[simp] theorem setIset_cop1 (va : Word) (c : CacheSet Unit) : (s.setIset va c).cop1 = s.cop1 := rfl
@[simp] theorem setIset_cop2 (va : Word) (c : CacheSet Unit) : (s.setIset va c).cop2 = s.cop2 := rfl
@[simp] theorem setIset_cop3 (va : Word) (c : CacheSet Unit) : (s.setIset va c).cop3 = s.cop3 := rfl
@[simp] theorem setIset_env (va : Word) (c : CacheSet Unit) : (s.setIset va c).env = s.env := rfl
@[simp] theorem setIset_last1 (va : Word) (c : CacheSet Unit) : (s.setIset va c).last1 = s.last1 := rfl
@[simp] theorem setIset_last2 (va : Word) (c : CacheSet Unit) : (s.setIset va c).last2 = s.last2 := rfl
@[simp] theorem setIset_freeCount (va : Word) (c : CacheSet Unit) : (s.setIset va c).freeCount = s.freeCount := rfl

/-! ## setDset -/

@[simp] theorem setDset_regs (va : Word) (c : CacheSet Bool) : (s.setDset va c).regs = s.regs := rfl
@[simp] theorem setDset_pc (va : Word) (c : CacheSet Bool) : (s.setDset va c).pc = s.pc := rfl
@[simp] theorem setDset_npc (va : Word) (c : CacheSet Bool) : (s.setDset va c).npc = s.npc := rfl
@[simp] theorem setDset_inDelaySlot (va : Word) (c : CacheSet Bool) : (s.setDset va c).inDelaySlot = s.inDelaySlot := rfl
@[simp] theorem setDset_hi (va : Word) (c : CacheSet Bool) : (s.setDset va c).hi = s.hi := rfl
@[simp] theorem setDset_lo (va : Word) (c : CacheSet Bool) : (s.setDset va c).lo = s.lo := rfl
@[simp] theorem setDset_llBit (va : Word) (c : CacheSet Bool) : (s.setDset va c).llBit = s.llBit := rfl
@[simp] theorem setDset_cp0 (va : Word) (c : CacheSet Bool) : (s.setDset va c).cp0 = s.cp0 := rfl
@[simp] theorem setDset_icache (va : Word) (c : CacheSet Bool) : (s.setDset va c).icache = s.icache := rfl
@[simp] theorem setDset_dcache (va : Word) (c : CacheSet Bool) : (s.setDset va c).dcache = s.dcache.set (setIndex va).toNat c (setIndex va).isLt := rfl
@[simp] theorem setDset_writeback (va : Word) (c : CacheSet Bool) : (s.setDset va c).writeback = s.writeback := rfl
@[simp] theorem setDset_stores (va : Word) (c : CacheSet Bool) : (s.setDset va c).stores = s.stores := rfl
@[simp] theorem setDset_mem (va : Word) (c : CacheSet Bool) : (s.setDset va c).mem = s.mem := rfl
@[simp] theorem setDset_cop1 (va : Word) (c : CacheSet Bool) : (s.setDset va c).cop1 = s.cop1 := rfl
@[simp] theorem setDset_cop2 (va : Word) (c : CacheSet Bool) : (s.setDset va c).cop2 = s.cop2 := rfl
@[simp] theorem setDset_cop3 (va : Word) (c : CacheSet Bool) : (s.setDset va c).cop3 = s.cop3 := rfl
@[simp] theorem setDset_env (va : Word) (c : CacheSet Bool) : (s.setDset va c).env = s.env := rfl
@[simp] theorem setDset_last1 (va : Word) (c : CacheSet Bool) : (s.setDset va c).last1 = s.last1 := rfl
@[simp] theorem setDset_last2 (va : Word) (c : CacheSet Bool) : (s.setDset va c).last2 = s.last2 := rfl
@[simp] theorem setDset_freeCount (va : Word) (c : CacheSet Bool) : (s.setDset va c).freeCount = s.freeCount := rfl

/-! ## drainWriteback -/

@[simp] theorem drainWriteback_regs : (s.drainWriteback).regs = s.regs := rfl
@[simp] theorem drainWriteback_pc : (s.drainWriteback).pc = s.pc := rfl
@[simp] theorem drainWriteback_npc : (s.drainWriteback).npc = s.npc := rfl
@[simp] theorem drainWriteback_inDelaySlot : (s.drainWriteback).inDelaySlot = s.inDelaySlot := rfl
@[simp] theorem drainWriteback_hi : (s.drainWriteback).hi = s.hi := rfl
@[simp] theorem drainWriteback_lo : (s.drainWriteback).lo = s.lo := rfl
@[simp] theorem drainWriteback_llBit : (s.drainWriteback).llBit = s.llBit := rfl
@[simp] theorem drainWriteback_cp0 : (s.drainWriteback).cp0 = s.cp0 := rfl
@[simp] theorem drainWriteback_icache : (s.drainWriteback).icache = s.icache := rfl
@[simp] theorem drainWriteback_dcache : (s.drainWriteback).dcache = s.dcache := rfl
@[simp] theorem drainWriteback_writeback : (s.drainWriteback).writeback = none := rfl
@[simp] theorem drainWriteback_stores : (s.drainWriteback).stores = s.stores := rfl
@[simp] theorem drainWriteback_mem : (s.drainWriteback).mem = s.memAfterWriteback := rfl
@[simp] theorem drainWriteback_cop1 : (s.drainWriteback).cop1 = s.cop1 := rfl
@[simp] theorem drainWriteback_cop2 : (s.drainWriteback).cop2 = s.cop2 := rfl
@[simp] theorem drainWriteback_cop3 : (s.drainWriteback).cop3 = s.cop3 := rfl
@[simp] theorem drainWriteback_env : (s.drainWriteback).env = s.env := rfl
@[simp] theorem drainWriteback_last1 : (s.drainWriteback).last1 = s.last1 := rfl
@[simp] theorem drainWriteback_last2 : (s.drainWriteback).last2 = s.last2 := rfl
@[simp] theorem drainWriteback_freeCount : (s.drainWriteback).freeCount = s.freeCount := rfl

/-! ## pushWriteback -/

@[simp] theorem pushWriteback_regs (va : Word) (d : Line) : (s.pushWriteback va d).regs = s.regs := rfl
@[simp] theorem pushWriteback_pc (va : Word) (d : Line) : (s.pushWriteback va d).pc = s.pc := rfl
@[simp] theorem pushWriteback_npc (va : Word) (d : Line) : (s.pushWriteback va d).npc = s.npc := rfl
@[simp] theorem pushWriteback_inDelaySlot (va : Word) (d : Line) : (s.pushWriteback va d).inDelaySlot = s.inDelaySlot := rfl
@[simp] theorem pushWriteback_hi (va : Word) (d : Line) : (s.pushWriteback va d).hi = s.hi := rfl
@[simp] theorem pushWriteback_lo (va : Word) (d : Line) : (s.pushWriteback va d).lo = s.lo := rfl
@[simp] theorem pushWriteback_llBit (va : Word) (d : Line) : (s.pushWriteback va d).llBit = s.llBit := rfl
@[simp] theorem pushWriteback_cp0 (va : Word) (d : Line) : (s.pushWriteback va d).cp0 = s.cp0 := rfl
@[simp] theorem pushWriteback_icache (va : Word) (d : Line) : (s.pushWriteback va d).icache = s.icache := rfl
@[simp] theorem pushWriteback_dcache (va : Word) (d : Line) : (s.pushWriteback va d).dcache = s.dcache := rfl
@[simp] theorem pushWriteback_writeback (va : Word) (d : Line) : (s.pushWriteback va d).writeback = some { va := va, data := d } := rfl
@[simp] theorem pushWriteback_stores (va : Word) (d : Line) : (s.pushWriteback va d).stores = s.stores := rfl
@[simp] theorem pushWriteback_mem (va : Word) (d : Line) : (s.pushWriteback va d).mem = s.memAfterWriteback := rfl
@[simp] theorem pushWriteback_cop1 (va : Word) (d : Line) : (s.pushWriteback va d).cop1 = s.cop1 := rfl
@[simp] theorem pushWriteback_cop2 (va : Word) (d : Line) : (s.pushWriteback va d).cop2 = s.cop2 := rfl
@[simp] theorem pushWriteback_cop3 (va : Word) (d : Line) : (s.pushWriteback va d).cop3 = s.cop3 := rfl
@[simp] theorem pushWriteback_env (va : Word) (d : Line) : (s.pushWriteback va d).env = s.env := rfl
@[simp] theorem pushWriteback_last1 (va : Word) (d : Line) : (s.pushWriteback va d).last1 = s.last1 := rfl
@[simp] theorem pushWriteback_last2 (va : Word) (d : Line) : (s.pushWriteback va d).last2 = s.last2 := rfl
@[simp] theorem pushWriteback_freeCount (va : Word) (d : Line) : (s.pushWriteback va d).freeCount = s.freeCount := rfl

/-! ## settleLine -/

@[simp] theorem settleLine_regs (va : Word) : (s.settleLine va).regs = s.regs := rfl
@[simp] theorem settleLine_pc (va : Word) : (s.settleLine va).pc = s.pc := rfl
@[simp] theorem settleLine_npc (va : Word) : (s.settleLine va).npc = s.npc := rfl
@[simp] theorem settleLine_inDelaySlot (va : Word) : (s.settleLine va).inDelaySlot = s.inDelaySlot := rfl
@[simp] theorem settleLine_hi (va : Word) : (s.settleLine va).hi = s.hi := rfl
@[simp] theorem settleLine_lo (va : Word) : (s.settleLine va).lo = s.lo := rfl
@[simp] theorem settleLine_llBit (va : Word) : (s.settleLine va).llBit = s.llBit := rfl
@[simp] theorem settleLine_cp0 (va : Word) : (s.settleLine va).cp0 = s.cp0 := rfl
@[simp] theorem settleLine_icache (va : Word) : (s.settleLine va).icache = s.icache := rfl
@[simp] theorem settleLine_dcache (va : Word) : (s.settleLine va).dcache = s.dcache := rfl
@[simp] theorem settleLine_writeback (va : Word) : (s.settleLine va).writeback = if s.writebackHolds va then none else s.writeback := rfl
@[simp] theorem settleLine_stores (va : Word) : (s.settleLine va).stores = s.stores := rfl
@[simp] theorem settleLine_mem (va : Word) : (s.settleLine va).mem = if s.writebackHolds va then s.memAfterWriteback else s.mem := rfl
@[simp] theorem settleLine_cop1 (va : Word) : (s.settleLine va).cop1 = s.cop1 := rfl
@[simp] theorem settleLine_cop2 (va : Word) : (s.settleLine va).cop2 = s.cop2 := rfl
@[simp] theorem settleLine_cop3 (va : Word) : (s.settleLine va).cop3 = s.cop3 := rfl
@[simp] theorem settleLine_env (va : Word) : (s.settleLine va).env = s.env := rfl
@[simp] theorem settleLine_last1 (va : Word) : (s.settleLine va).last1 = s.last1 := rfl
@[simp] theorem settleLine_last2 (va : Word) : (s.settleLine va).last2 = s.last2 := rfl
@[simp] theorem settleLine_freeCount (va : Word) : (s.settleLine va).freeCount = s.freeCount := rfl

/-! ## drainStores -/

@[simp] theorem drainStores_regs : (s.drainStores).regs = s.regs := rfl
@[simp] theorem drainStores_pc : (s.drainStores).pc = s.pc := rfl
@[simp] theorem drainStores_npc : (s.drainStores).npc = s.npc := rfl
@[simp] theorem drainStores_inDelaySlot : (s.drainStores).inDelaySlot = s.inDelaySlot := rfl
@[simp] theorem drainStores_hi : (s.drainStores).hi = s.hi := rfl
@[simp] theorem drainStores_lo : (s.drainStores).lo = s.lo := rfl
@[simp] theorem drainStores_llBit : (s.drainStores).llBit = s.llBit := rfl
@[simp] theorem drainStores_cp0 : (s.drainStores).cp0 = s.cp0 := rfl
@[simp] theorem drainStores_icache : (s.drainStores).icache = s.icache := rfl
@[simp] theorem drainStores_dcache : (s.drainStores).dcache = s.dcache := rfl
@[simp] theorem drainStores_writeback : (s.drainStores).writeback = s.writeback := rfl
@[simp] theorem drainStores_stores : (s.drainStores).stores = [] := rfl
@[simp] theorem drainStores_mem : (s.drainStores).mem = s.env.commitStores s.mem s.stores := rfl
@[simp] theorem drainStores_cop1 : (s.drainStores).cop1 = s.cop1 := rfl
@[simp] theorem drainStores_cop2 : (s.drainStores).cop2 = s.cop2 := rfl
@[simp] theorem drainStores_cop3 : (s.drainStores).cop3 = s.cop3 := rfl
@[simp] theorem drainStores_env : (s.drainStores).env = s.env := rfl
@[simp] theorem drainStores_last1 : (s.drainStores).last1 = s.last1 := rfl
@[simp] theorem drainStores_last2 : (s.drainStores).last2 = s.last2 := rfl
@[simp] theorem drainStores_freeCount : (s.drainStores).freeCount = s.freeCount := rfl

/-! ## pushStore -/

@[simp] theorem pushStore_regs (va : Word) (bs : List Byte) : (s.pushStore va bs).regs = s.regs := by cases s; rfl
@[simp] theorem pushStore_pc (va : Word) (bs : List Byte) : (s.pushStore va bs).pc = s.pc := by cases s; rfl
@[simp] theorem pushStore_npc (va : Word) (bs : List Byte) : (s.pushStore va bs).npc = s.npc := by cases s; rfl
@[simp] theorem pushStore_inDelaySlot (va : Word) (bs : List Byte) : (s.pushStore va bs).inDelaySlot = s.inDelaySlot := by cases s; rfl
@[simp] theorem pushStore_hi (va : Word) (bs : List Byte) : (s.pushStore va bs).hi = s.hi := by cases s; rfl
@[simp] theorem pushStore_lo (va : Word) (bs : List Byte) : (s.pushStore va bs).lo = s.lo := by cases s; rfl
@[simp] theorem pushStore_llBit (va : Word) (bs : List Byte) : (s.pushStore va bs).llBit = s.llBit := by cases s; rfl
@[simp] theorem pushStore_cp0 (va : Word) (bs : List Byte) : (s.pushStore va bs).cp0 = s.cp0 := by cases s; rfl
@[simp] theorem pushStore_icache (va : Word) (bs : List Byte) : (s.pushStore va bs).icache = s.icache := by cases s; rfl
@[simp] theorem pushStore_dcache (va : Word) (bs : List Byte) : (s.pushStore va bs).dcache = s.dcache := by cases s; rfl
@[simp] theorem pushStore_writeback (va : Word) (bs : List Byte) : (s.pushStore va bs).writeback = s.writeback := by cases s; rfl
@[simp] theorem pushStore_stores (va : Word) (bs : List Byte) : (s.pushStore va bs).stores = s.stores.drop s.overflow ++ [{ va := va, bytes := bs }] := by cases s; rfl
@[simp] theorem pushStore_mem (va : Word) (bs : List Byte) : (s.pushStore va bs).mem = s.env.commitStores s.mem (s.stores.take s.overflow) := by cases s; rfl
@[simp] theorem pushStore_cop1 (va : Word) (bs : List Byte) : (s.pushStore va bs).cop1 = s.cop1 := by cases s; rfl
@[simp] theorem pushStore_cop2 (va : Word) (bs : List Byte) : (s.pushStore va bs).cop2 = s.cop2 := by cases s; rfl
@[simp] theorem pushStore_cop3 (va : Word) (bs : List Byte) : (s.pushStore va bs).cop3 = s.cop3 := by cases s; rfl
@[simp] theorem pushStore_env (va : Word) (bs : List Byte) : (s.pushStore va bs).env = s.env := by cases s; rfl
@[simp] theorem pushStore_last1 (va : Word) (bs : List Byte) : (s.pushStore va bs).last1 = s.last1 := by cases s; rfl
@[simp] theorem pushStore_last2 (va : Word) (bs : List Byte) : (s.pushStore va bs).last2 = s.last2 := by cases s; rfl
@[simp] theorem pushStore_freeCount (va : Word) (bs : List Byte) : (s.pushStore va bs).freeCount = s.freeCount := by cases s; rfl

/-! ## evict -/

@[simp] theorem evict_regs (va : Word) (w : WaySel) : (s.evict va w).regs = s.regs := rfl
@[simp] theorem evict_pc (va : Word) (w : WaySel) : (s.evict va w).pc = s.pc := rfl
@[simp] theorem evict_npc (va : Word) (w : WaySel) : (s.evict va w).npc = s.npc := rfl
@[simp] theorem evict_inDelaySlot (va : Word) (w : WaySel) : (s.evict va w).inDelaySlot = s.inDelaySlot := rfl
@[simp] theorem evict_hi (va : Word) (w : WaySel) : (s.evict va w).hi = s.hi := rfl
@[simp] theorem evict_lo (va : Word) (w : WaySel) : (s.evict va w).lo = s.lo := rfl
@[simp] theorem evict_llBit (va : Word) (w : WaySel) : (s.evict va w).llBit = s.llBit := rfl
@[simp] theorem evict_cp0 (va : Word) (w : WaySel) : (s.evict va w).cp0 = s.cp0 := rfl
@[simp] theorem evict_icache (va : Word) (w : WaySel) : (s.evict va w).icache = s.icache := rfl
@[simp] theorem evict_dcache (va : Word) (w : WaySel) : (s.evict va w).dcache = s.dcache := rfl
@[simp] theorem evict_stores (va : Word) (w : WaySel) : (s.evict va w).stores = s.stores := rfl
@[simp] theorem evict_mem (va : Word) (w : WaySel) : (s.evict va w).mem = if s.dirtyVictim va w then s.memAfterWriteback else s.mem := rfl
@[simp] theorem evict_cop1 (va : Word) (w : WaySel) : (s.evict va w).cop1 = s.cop1 := rfl
@[simp] theorem evict_cop2 (va : Word) (w : WaySel) : (s.evict va w).cop2 = s.cop2 := rfl
@[simp] theorem evict_cop3 (va : Word) (w : WaySel) : (s.evict va w).cop3 = s.cop3 := rfl
@[simp] theorem evict_env (va : Word) (w : WaySel) : (s.evict va w).env = s.env := rfl
@[simp] theorem evict_last1 (va : Word) (w : WaySel) : (s.evict va w).last1 = s.last1 := rfl
@[simp] theorem evict_last2 (va : Word) (w : WaySel) : (s.evict va w).last2 = s.last2 := rfl
@[simp] theorem evict_freeCount (va : Word) (w : WaySel) : (s.evict va w).freeCount = s.freeCount := rfl

/-! ## fillDset -/

@[simp] theorem fillDset_regs (va : Word) (w : WaySel) : (s.fillDset va w).regs = s.regs := rfl
@[simp] theorem fillDset_pc (va : Word) (w : WaySel) : (s.fillDset va w).pc = s.pc := rfl
@[simp] theorem fillDset_npc (va : Word) (w : WaySel) : (s.fillDset va w).npc = s.npc := rfl
@[simp] theorem fillDset_inDelaySlot (va : Word) (w : WaySel) : (s.fillDset va w).inDelaySlot = s.inDelaySlot := rfl
@[simp] theorem fillDset_hi (va : Word) (w : WaySel) : (s.fillDset va w).hi = s.hi := rfl
@[simp] theorem fillDset_lo (va : Word) (w : WaySel) : (s.fillDset va w).lo = s.lo := rfl
@[simp] theorem fillDset_llBit (va : Word) (w : WaySel) : (s.fillDset va w).llBit = s.llBit := rfl
@[simp] theorem fillDset_cp0 (va : Word) (w : WaySel) : (s.fillDset va w).cp0 = s.cp0 := rfl
@[simp] theorem fillDset_icache (va : Word) (w : WaySel) : (s.fillDset va w).icache = s.icache := rfl
@[simp] theorem fillDset_writeback (va : Word) (w : WaySel) : (s.fillDset va w).writeback = s.writeback := rfl
@[simp] theorem fillDset_stores (va : Word) (w : WaySel) : (s.fillDset va w).stores = s.stores := rfl
@[simp] theorem fillDset_mem (va : Word) (w : WaySel) : (s.fillDset va w).mem = s.mem := rfl
@[simp] theorem fillDset_cop1 (va : Word) (w : WaySel) : (s.fillDset va w).cop1 = s.cop1 := rfl
@[simp] theorem fillDset_cop2 (va : Word) (w : WaySel) : (s.fillDset va w).cop2 = s.cop2 := rfl
@[simp] theorem fillDset_cop3 (va : Word) (w : WaySel) : (s.fillDset va w).cop3 = s.cop3 := rfl
@[simp] theorem fillDset_env (va : Word) (w : WaySel) : (s.fillDset va w).env = s.env := rfl
@[simp] theorem fillDset_last1 (va : Word) (w : WaySel) : (s.fillDset va w).last1 = s.last1 := rfl
@[simp] theorem fillDset_last2 (va : Word) (w : WaySel) : (s.fillDset va w).last2 = s.last2 := rfl
@[simp] theorem fillDset_freeCount (va : Word) (w : WaySel) : (s.fillDset va w).freeCount = s.freeCount := rfl

/-! ## fillIset -/

@[simp] theorem fillIset_regs (va : Word) (w : WaySel) : (s.fillIset va w).regs = s.regs := rfl
@[simp] theorem fillIset_pc (va : Word) (w : WaySel) : (s.fillIset va w).pc = s.pc := rfl
@[simp] theorem fillIset_npc (va : Word) (w : WaySel) : (s.fillIset va w).npc = s.npc := rfl
@[simp] theorem fillIset_inDelaySlot (va : Word) (w : WaySel) : (s.fillIset va w).inDelaySlot = s.inDelaySlot := rfl
@[simp] theorem fillIset_hi (va : Word) (w : WaySel) : (s.fillIset va w).hi = s.hi := rfl
@[simp] theorem fillIset_lo (va : Word) (w : WaySel) : (s.fillIset va w).lo = s.lo := rfl
@[simp] theorem fillIset_llBit (va : Word) (w : WaySel) : (s.fillIset va w).llBit = s.llBit := rfl
@[simp] theorem fillIset_cp0 (va : Word) (w : WaySel) : (s.fillIset va w).cp0 = s.cp0 := rfl
@[simp] theorem fillIset_dcache (va : Word) (w : WaySel) : (s.fillIset va w).dcache = s.dcache := rfl
@[simp] theorem fillIset_writeback (va : Word) (w : WaySel) : (s.fillIset va w).writeback = s.writeback := rfl
@[simp] theorem fillIset_stores (va : Word) (w : WaySel) : (s.fillIset va w).stores = s.stores := rfl
@[simp] theorem fillIset_mem (va : Word) (w : WaySel) : (s.fillIset va w).mem = s.mem := rfl
@[simp] theorem fillIset_cop1 (va : Word) (w : WaySel) : (s.fillIset va w).cop1 = s.cop1 := rfl
@[simp] theorem fillIset_cop2 (va : Word) (w : WaySel) : (s.fillIset va w).cop2 = s.cop2 := rfl
@[simp] theorem fillIset_cop3 (va : Word) (w : WaySel) : (s.fillIset va w).cop3 = s.cop3 := rfl
@[simp] theorem fillIset_env (va : Word) (w : WaySel) : (s.fillIset va w).env = s.env := rfl
@[simp] theorem fillIset_last1 (va : Word) (w : WaySel) : (s.fillIset va w).last1 = s.last1 := rfl
@[simp] theorem fillIset_last2 (va : Word) (w : WaySel) : (s.fillIset va w).last2 = s.last2 := rfl
@[simp] theorem fillIset_freeCount (va : Word) (w : WaySel) : (s.fillIset va w).freeCount = s.freeCount := rfl

/-! ## touchD -/

@[simp] theorem touchD_regs (va : Word) (w : WaySel) : (s.touchD va w).regs = s.regs := rfl
@[simp] theorem touchD_pc (va : Word) (w : WaySel) : (s.touchD va w).pc = s.pc := rfl
@[simp] theorem touchD_npc (va : Word) (w : WaySel) : (s.touchD va w).npc = s.npc := rfl
@[simp] theorem touchD_inDelaySlot (va : Word) (w : WaySel) : (s.touchD va w).inDelaySlot = s.inDelaySlot := rfl
@[simp] theorem touchD_hi (va : Word) (w : WaySel) : (s.touchD va w).hi = s.hi := rfl
@[simp] theorem touchD_lo (va : Word) (w : WaySel) : (s.touchD va w).lo = s.lo := rfl
@[simp] theorem touchD_llBit (va : Word) (w : WaySel) : (s.touchD va w).llBit = s.llBit := rfl
@[simp] theorem touchD_cp0 (va : Word) (w : WaySel) : (s.touchD va w).cp0 = s.cp0 := rfl
@[simp] theorem touchD_icache (va : Word) (w : WaySel) : (s.touchD va w).icache = s.icache := rfl
@[simp] theorem touchD_writeback (va : Word) (w : WaySel) : (s.touchD va w).writeback = s.writeback := rfl
@[simp] theorem touchD_stores (va : Word) (w : WaySel) : (s.touchD va w).stores = s.stores := rfl
@[simp] theorem touchD_mem (va : Word) (w : WaySel) : (s.touchD va w).mem = s.mem := rfl
@[simp] theorem touchD_cop1 (va : Word) (w : WaySel) : (s.touchD va w).cop1 = s.cop1 := rfl
@[simp] theorem touchD_cop2 (va : Word) (w : WaySel) : (s.touchD va w).cop2 = s.cop2 := rfl
@[simp] theorem touchD_cop3 (va : Word) (w : WaySel) : (s.touchD va w).cop3 = s.cop3 := rfl
@[simp] theorem touchD_env (va : Word) (w : WaySel) : (s.touchD va w).env = s.env := rfl
@[simp] theorem touchD_last1 (va : Word) (w : WaySel) : (s.touchD va w).last1 = s.last1 := rfl
@[simp] theorem touchD_last2 (va : Word) (w : WaySel) : (s.touchD va w).last2 = s.last2 := rfl
@[simp] theorem touchD_freeCount (va : Word) (w : WaySel) : (s.touchD va w).freeCount = s.freeCount := rfl

/-! ## touchI -/

@[simp] theorem touchI_regs (va : Word) (w : WaySel) : (s.touchI va w).regs = s.regs := rfl
@[simp] theorem touchI_pc (va : Word) (w : WaySel) : (s.touchI va w).pc = s.pc := rfl
@[simp] theorem touchI_npc (va : Word) (w : WaySel) : (s.touchI va w).npc = s.npc := rfl
@[simp] theorem touchI_inDelaySlot (va : Word) (w : WaySel) : (s.touchI va w).inDelaySlot = s.inDelaySlot := rfl
@[simp] theorem touchI_hi (va : Word) (w : WaySel) : (s.touchI va w).hi = s.hi := rfl
@[simp] theorem touchI_lo (va : Word) (w : WaySel) : (s.touchI va w).lo = s.lo := rfl
@[simp] theorem touchI_llBit (va : Word) (w : WaySel) : (s.touchI va w).llBit = s.llBit := rfl
@[simp] theorem touchI_cp0 (va : Word) (w : WaySel) : (s.touchI va w).cp0 = s.cp0 := rfl
@[simp] theorem touchI_dcache (va : Word) (w : WaySel) : (s.touchI va w).dcache = s.dcache := rfl
@[simp] theorem touchI_writeback (va : Word) (w : WaySel) : (s.touchI va w).writeback = s.writeback := rfl
@[simp] theorem touchI_stores (va : Word) (w : WaySel) : (s.touchI va w).stores = s.stores := rfl
@[simp] theorem touchI_mem (va : Word) (w : WaySel) : (s.touchI va w).mem = s.mem := rfl
@[simp] theorem touchI_cop1 (va : Word) (w : WaySel) : (s.touchI va w).cop1 = s.cop1 := rfl
@[simp] theorem touchI_cop2 (va : Word) (w : WaySel) : (s.touchI va w).cop2 = s.cop2 := rfl
@[simp] theorem touchI_cop3 (va : Word) (w : WaySel) : (s.touchI va w).cop3 = s.cop3 := rfl
@[simp] theorem touchI_env (va : Word) (w : WaySel) : (s.touchI va w).env = s.env := rfl
@[simp] theorem touchI_last1 (va : Word) (w : WaySel) : (s.touchI va w).last1 = s.last1 := rfl
@[simp] theorem touchI_last2 (va : Word) (w : WaySel) : (s.touchI va w).last2 = s.last2 := rfl
@[simp] theorem touchI_freeCount (va : Word) (w : WaySel) : (s.touchI va w).freeCount = s.freeCount := rfl

/-! ## writebackWay -/

@[simp] theorem writebackWay_regs (va : Word) (w : WaySel) : (s.writebackWay va w).regs = s.regs := rfl
@[simp] theorem writebackWay_pc (va : Word) (w : WaySel) : (s.writebackWay va w).pc = s.pc := rfl
@[simp] theorem writebackWay_npc (va : Word) (w : WaySel) : (s.writebackWay va w).npc = s.npc := rfl
@[simp] theorem writebackWay_inDelaySlot (va : Word) (w : WaySel) : (s.writebackWay va w).inDelaySlot = s.inDelaySlot := rfl
@[simp] theorem writebackWay_hi (va : Word) (w : WaySel) : (s.writebackWay va w).hi = s.hi := rfl
@[simp] theorem writebackWay_lo (va : Word) (w : WaySel) : (s.writebackWay va w).lo = s.lo := rfl
@[simp] theorem writebackWay_llBit (va : Word) (w : WaySel) : (s.writebackWay va w).llBit = s.llBit := rfl
@[simp] theorem writebackWay_cp0 (va : Word) (w : WaySel) : (s.writebackWay va w).cp0 = s.cp0 := rfl
@[simp] theorem writebackWay_icache (va : Word) (w : WaySel) : (s.writebackWay va w).icache = s.icache := rfl
@[simp] theorem writebackWay_stores (va : Word) (w : WaySel) : (s.writebackWay va w).stores = s.stores := rfl
@[simp] theorem writebackWay_mem (va : Word) (w : WaySel) : (s.writebackWay va w).mem = if ((s.dset va).way w).dirty then s.memAfterWriteback else s.mem := rfl
@[simp] theorem writebackWay_cop1 (va : Word) (w : WaySel) : (s.writebackWay va w).cop1 = s.cop1 := rfl
@[simp] theorem writebackWay_cop2 (va : Word) (w : WaySel) : (s.writebackWay va w).cop2 = s.cop2 := rfl
@[simp] theorem writebackWay_cop3 (va : Word) (w : WaySel) : (s.writebackWay va w).cop3 = s.cop3 := rfl
@[simp] theorem writebackWay_env (va : Word) (w : WaySel) : (s.writebackWay va w).env = s.env := rfl
@[simp] theorem writebackWay_last1 (va : Word) (w : WaySel) : (s.writebackWay va w).last1 = s.last1 := rfl
@[simp] theorem writebackWay_last2 (va : Word) (w : WaySel) : (s.writebackWay va w).last2 = s.last2 := rfl
@[simp] theorem writebackWay_freeCount (va : Word) (w : WaySel) : (s.writebackWay va w).freeCount = s.freeCount := rfl

/-! ## afterSc -/

@[simp] theorem afterSc_regs (rt : Reg) (v : Word) : (s.afterSc rt v).regs = (s.setReg rt v).regs := rfl
@[simp] theorem afterSc_pc (rt : Reg) (v : Word) : (s.afterSc rt v).pc = s.npc := rfl
@[simp] theorem afterSc_npc (rt : Reg) (v : Word) : (s.afterSc rt v).npc = s.npc + 4 := rfl
@[simp] theorem afterSc_inDelaySlot (rt : Reg) (v : Word) : (s.afterSc rt v).inDelaySlot = false := rfl
@[simp] theorem afterSc_hi (rt : Reg) (v : Word) : (s.afterSc rt v).hi = s.hi := rfl
@[simp] theorem afterSc_lo (rt : Reg) (v : Word) : (s.afterSc rt v).lo = s.lo := rfl
@[simp] theorem afterSc_llBit (rt : Reg) (v : Word) : (s.afterSc rt v).llBit = s.freeBit := rfl
@[simp] theorem afterSc_cp0 (rt : Reg) (v : Word) : (s.afterSc rt v).cp0 = s.cp0 := rfl
@[simp] theorem afterSc_icache (rt : Reg) (v : Word) : (s.afterSc rt v).icache = s.icache := rfl
@[simp] theorem afterSc_dcache (rt : Reg) (v : Word) : (s.afterSc rt v).dcache = s.dcache := rfl
@[simp] theorem afterSc_writeback (rt : Reg) (v : Word) : (s.afterSc rt v).writeback = s.writeback := rfl
@[simp] theorem afterSc_stores (rt : Reg) (v : Word) : (s.afterSc rt v).stores = s.stores := rfl
@[simp] theorem afterSc_mem (rt : Reg) (v : Word) : (s.afterSc rt v).mem = s.mem := rfl
@[simp] theorem afterSc_cop1 (rt : Reg) (v : Word) : (s.afterSc rt v).cop1 = s.cop1 := rfl
@[simp] theorem afterSc_cop2 (rt : Reg) (v : Word) : (s.afterSc rt v).cop2 = s.cop2 := rfl
@[simp] theorem afterSc_cop3 (rt : Reg) (v : Word) : (s.afterSc rt v).cop3 = s.cop3 := rfl
@[simp] theorem afterSc_env (rt : Reg) (v : Word) : (s.afterSc rt v).env = s.env := rfl
@[simp] theorem afterSc_last1 (rt : Reg) (v : Word) : (s.afterSc rt v).last1 = .other := rfl
@[simp] theorem afterSc_last2 (rt : Reg) (v : Word) : (s.afterSc rt v).last2 = s.last1 := rfl
@[simp] theorem afterSc_freeCount (rt : Reg) (v : Word) : (s.afterSc rt v).freeCount = s.freeCount + 1 := rfl

/-! ## endStep -/

@[simp] theorem endStep_regs : (s.endStep).regs = s.regs := rfl
@[simp] theorem endStep_pc : (s.endStep).pc = s.pc := rfl
@[simp] theorem endStep_npc : (s.endStep).npc = s.npc := rfl
@[simp] theorem endStep_inDelaySlot : (s.endStep).inDelaySlot = s.inDelaySlot := rfl
@[simp] theorem endStep_hi : (s.endStep).hi = s.hi := rfl
@[simp] theorem endStep_lo : (s.endStep).lo = s.lo := rfl
@[simp] theorem endStep_llBit : (s.endStep).llBit = s.llBit := rfl
@[simp] theorem endStep_icache : (s.endStep).icache = s.icache := rfl
@[simp] theorem endStep_dcache : (s.endStep).dcache = s.dcache := rfl
@[simp] theorem endStep_writeback : (s.endStep).writeback = s.writeback := rfl
@[simp] theorem endStep_stores : (s.endStep).stores = s.stores := rfl
@[simp] theorem endStep_mem : (s.endStep).mem = s.mem := rfl
@[simp] theorem endStep_cop1 : (s.endStep).cop1 = s.cop1 := rfl
@[simp] theorem endStep_cop2 : (s.endStep).cop2 = s.cop2 := rfl
@[simp] theorem endStep_cop3 : (s.endStep).cop3 = s.cop3 := rfl
@[simp] theorem endStep_env : (s.endStep).env = s.env := rfl
@[simp] theorem endStep_last1 : (s.endStep).last1 = s.last1 := rfl
@[simp] theorem endStep_last2 : (s.endStep).last2 = s.last2 := rfl
@[simp] theorem endStep_freeCount : (s.endStep).freeCount = if s.timerOpen then s.freeCount + 1 else s.freeCount := rfl

/-! ## withFpuOf -/

@[simp] theorem withFpuOf_regs (t : State) : (s.withFpuOf t).regs = s.regs := rfl
@[simp] theorem withFpuOf_pc (t : State) : (s.withFpuOf t).pc = s.pc := rfl
@[simp] theorem withFpuOf_npc (t : State) : (s.withFpuOf t).npc = s.npc := rfl
@[simp] theorem withFpuOf_inDelaySlot (t : State) : (s.withFpuOf t).inDelaySlot = s.inDelaySlot := rfl
@[simp] theorem withFpuOf_hi (t : State) : (s.withFpuOf t).hi = s.hi := rfl
@[simp] theorem withFpuOf_lo (t : State) : (s.withFpuOf t).lo = s.lo := rfl
@[simp] theorem withFpuOf_llBit (t : State) : (s.withFpuOf t).llBit = s.llBit := rfl
@[simp] theorem withFpuOf_cp0 (t : State) : (s.withFpuOf t).cp0 = s.cp0 := rfl
@[simp] theorem withFpuOf_icache (t : State) : (s.withFpuOf t).icache = s.icache := rfl
@[simp] theorem withFpuOf_dcache (t : State) : (s.withFpuOf t).dcache = s.dcache := rfl
@[simp] theorem withFpuOf_writeback (t : State) : (s.withFpuOf t).writeback = s.writeback := rfl
@[simp] theorem withFpuOf_stores (t : State) : (s.withFpuOf t).stores = s.stores := rfl
@[simp] theorem withFpuOf_mem (t : State) : (s.withFpuOf t).mem = s.mem := rfl
@[simp] theorem withFpuOf_cop2 (t : State) : (s.withFpuOf t).cop2 = s.cop2 := rfl
@[simp] theorem withFpuOf_cop3 (t : State) : (s.withFpuOf t).cop3 = s.cop3 := rfl
@[simp] theorem withFpuOf_env (t : State) : (s.withFpuOf t).env = s.env := rfl
@[simp] theorem withFpuOf_last1 (t : State) : (s.withFpuOf t).last1 = s.last1 := rfl
@[simp] theorem withFpuOf_last2 (t : State) : (s.withFpuOf t).last2 = s.last2 := rfl
@[simp] theorem withFpuOf_cop1 (t : State) : (s.withFpuOf t).cop1 = t.cop1 := rfl
@[simp] theorem withFpuOf_freeCount (t : State) : (s.withFpuOf t).freeCount = t.freeCount := rfl

/-! ## tick -/

@[simp] theorem tick_regs : (s.tick).regs = s.regs := rfl
@[simp] theorem tick_pc : (s.tick).pc = s.pc := rfl
@[simp] theorem tick_npc : (s.tick).npc = s.npc := rfl
@[simp] theorem tick_inDelaySlot : (s.tick).inDelaySlot = s.inDelaySlot := rfl
@[simp] theorem tick_hi : (s.tick).hi = s.hi := rfl
@[simp] theorem tick_lo : (s.tick).lo = s.lo := rfl
@[simp] theorem tick_llBit : (s.tick).llBit = s.llBit := rfl
@[simp] theorem tick_cp0 : (s.tick).cp0 = s.cp0 := rfl
@[simp] theorem tick_icache : (s.tick).icache = s.icache := rfl
@[simp] theorem tick_dcache : (s.tick).dcache = s.dcache := rfl
@[simp] theorem tick_writeback : (s.tick).writeback = s.writeback := rfl
@[simp] theorem tick_stores : (s.tick).stores = s.stores := rfl
@[simp] theorem tick_mem : (s.tick).mem = s.mem := rfl
@[simp] theorem tick_cop1 : (s.tick).cop1 = { s.cop1 with ctl := s.cop1.ctl.tick } := rfl
@[simp] theorem tick_cop2 : (s.tick).cop2 = s.cop2 := rfl
@[simp] theorem tick_cop3 : (s.tick).cop3 = s.cop3 := rfl
@[simp] theorem tick_env : (s.tick).env = { s.env with time := s.env.time + 1 } := rfl
@[simp] theorem tick_last1 : (s.tick).last1 = s.last1 := rfl
@[simp] theorem tick_last2 : (s.tick).last2 = s.last2 := rfl
@[simp] theorem tick_freeCount : (s.tick).freeCount = s.freeCount := rfl

/-! ## applyInput -/

@[simp] theorem applyInput_regs (i : Input) (rest : List Input) : (s.applyInput i rest).regs = s.regs := rfl
@[simp] theorem applyInput_pc (i : Input) (rest : List Input) : (s.applyInput i rest).pc = s.pc := rfl
@[simp] theorem applyInput_npc (i : Input) (rest : List Input) : (s.applyInput i rest).npc = s.npc := rfl
@[simp] theorem applyInput_inDelaySlot (i : Input) (rest : List Input) : (s.applyInput i rest).inDelaySlot = s.inDelaySlot := rfl
@[simp] theorem applyInput_hi (i : Input) (rest : List Input) : (s.applyInput i rest).hi = s.hi := rfl
@[simp] theorem applyInput_lo (i : Input) (rest : List Input) : (s.applyInput i rest).lo = s.lo := rfl
@[simp] theorem applyInput_llBit (i : Input) (rest : List Input) : (s.applyInput i rest).llBit = s.llBit := rfl
@[simp] theorem applyInput_cp0 (i : Input) (rest : List Input) : (s.applyInput i rest).cp0 = s.cp0 := rfl
@[simp] theorem applyInput_icache (i : Input) (rest : List Input) : (s.applyInput i rest).icache = s.icache := rfl
@[simp] theorem applyInput_dcache (i : Input) (rest : List Input) : (s.applyInput i rest).dcache = s.dcache := rfl
@[simp] theorem applyInput_writeback (i : Input) (rest : List Input) : (s.applyInput i rest).writeback = s.writeback := rfl
@[simp] theorem applyInput_stores (i : Input) (rest : List Input) : (s.applyInput i rest).stores = s.stores := rfl
@[simp] theorem applyInput_mem (i : Input) (rest : List Input) : (s.applyInput i rest).mem = s.mem := rfl
@[simp] theorem applyInput_cop1 (i : Input) (rest : List Input) : (s.applyInput i rest).cop1 = s.cop1 := rfl
@[simp] theorem applyInput_cop2 (i : Input) (rest : List Input) : (s.applyInput i rest).cop2 = s.cop2 := rfl
@[simp] theorem applyInput_cop3 (i : Input) (rest : List Input) : (s.applyInput i rest).cop3 = s.cop3 := rfl
@[simp] theorem applyInput_env (i : Input) (rest : List Input) : (s.applyInput i rest).env = { s.env with inputs := rest, intPins := i.intPins, countExtra := i.countExtra, fillWayB := i.fillWayB } := rfl
@[simp] theorem applyInput_last1 (i : Input) (rest : List Input) : (s.applyInput i rest).last1 = s.last1 := rfl
@[simp] theorem applyInput_last2 (i : Input) (rest : List Input) : (s.applyInput i rest).last2 = s.last2 := rfl
@[simp] theorem applyInput_freeCount (i : Input) (rest : List Input) : (s.applyInput i rest).freeCount = s.freeCount := rfl

/-! ## nmiEntry -/

@[simp] theorem nmiEntry_regs : (nmiEntry s).regs = s.regs := rfl
@[simp] theorem nmiEntry_pc : (nmiEntry s).pc = resetVector := rfl
@[simp] theorem nmiEntry_npc : (nmiEntry s).npc = resetVector + 4 := rfl
@[simp] theorem nmiEntry_inDelaySlot : (nmiEntry s).inDelaySlot = false := rfl
@[simp] theorem nmiEntry_hi : (nmiEntry s).hi = s.hi := rfl
@[simp] theorem nmiEntry_lo : (nmiEntry s).lo = s.lo := rfl
@[simp] theorem nmiEntry_llBit : (nmiEntry s).llBit = s.llBit := rfl
@[simp] theorem nmiEntry_icache : (nmiEntry s).icache = s.icache := rfl
@[simp] theorem nmiEntry_dcache : (nmiEntry s).dcache = s.dcache := rfl
@[simp] theorem nmiEntry_writeback : (nmiEntry s).writeback = s.writeback := rfl
@[simp] theorem nmiEntry_stores : (nmiEntry s).stores = s.stores := rfl
@[simp] theorem nmiEntry_mem : (nmiEntry s).mem = s.mem := rfl
@[simp] theorem nmiEntry_cop1 : (nmiEntry s).cop1 = s.cop1 := rfl
@[simp] theorem nmiEntry_cop2 : (nmiEntry s).cop2 = s.cop2 := rfl
@[simp] theorem nmiEntry_cop3 : (nmiEntry s).cop3 = s.cop3 := rfl
@[simp] theorem nmiEntry_env : (nmiEntry s).env = s.env := rfl
@[simp] theorem nmiEntry_last1 : (nmiEntry s).last1 = .entry := rfl
@[simp] theorem nmiEntry_last2 : (nmiEntry s).last2 = .entry := rfl
@[simp] theorem nmiEntry_freeCount : (nmiEntry s).freeCount = s.freeCount := rfl

/-! ## busEvent: what a transfer or an outside write leaves alone -/

@[simp] theorem busEvent_regs (e : BusEvent) : (s.busEvent e).regs = s.regs := by cases e <;> rfl
@[simp] theorem busEvent_pc (e : BusEvent) : (s.busEvent e).pc = s.pc := by cases e <;> rfl
@[simp] theorem busEvent_npc (e : BusEvent) : (s.busEvent e).npc = s.npc := by cases e <;> rfl
@[simp] theorem busEvent_inDelaySlot (e : BusEvent) : (s.busEvent e).inDelaySlot = s.inDelaySlot := by cases e <;> rfl
@[simp] theorem busEvent_hi (e : BusEvent) : (s.busEvent e).hi = s.hi := by cases e <;> rfl
@[simp] theorem busEvent_lo (e : BusEvent) : (s.busEvent e).lo = s.lo := by cases e <;> rfl
@[simp] theorem busEvent_llBit (e : BusEvent) : (s.busEvent e).llBit = s.llBit := by cases e <;> rfl
@[simp] theorem busEvent_cp0 (e : BusEvent) : (s.busEvent e).cp0 = s.cp0 := by cases e <;> rfl
@[simp] theorem busEvent_icache (e : BusEvent) : (s.busEvent e).icache = s.icache := by cases e <;> rfl
@[simp] theorem busEvent_dcache (e : BusEvent) : (s.busEvent e).dcache = s.dcache := by cases e <;> rfl
@[simp] theorem busEvent_cop1 (e : BusEvent) : (s.busEvent e).cop1 = s.cop1 := by cases e <;> rfl
@[simp] theorem busEvent_cop2 (e : BusEvent) : (s.busEvent e).cop2 = s.cop2 := by cases e <;> rfl
@[simp] theorem busEvent_cop3 (e : BusEvent) : (s.busEvent e).cop3 = s.cop3 := by cases e <;> rfl
@[simp] theorem busEvent_env (e : BusEvent) : (s.busEvent e).env = s.env := by cases e <;> rfl
@[simp] theorem busEvent_last1 (e : BusEvent) : (s.busEvent e).last1 = s.last1 := by cases e <;> rfl
@[simp] theorem busEvent_last2 (e : BusEvent) : (s.busEvent e).last2 = s.last2 := by cases e <;> rfl
@[simp] theorem busEvent_freeCount (e : BusEvent) : (s.busEvent e).freeCount = s.freeCount := by cases e <;> rfl

/-! ## CP0 fields after the entries and returns -/

@[simp] theorem takeException_badVAddr (e : GeneralException) :
    (takeException e s).cp0.badVAddr = e.badVAddr s.cp0.badVAddr := rfl
@[simp] theorem takeException_count (e : GeneralException) : (takeException e s).cp0.count = s.cp0.count := rfl
@[simp] theorem takeException_compare (e : GeneralException) : (takeException e s).cp0.compare = s.cp0.compare := rfl
@[simp] theorem takeException_epc (e : GeneralException) :
    (takeException e s).cp0.epc = if s.cp0.status.exl then s.cp0.epc else s.restartAddress := rfl
@[simp] theorem takeException_errorEPC (e : GeneralException) : (takeException e s).cp0.errorEPC = s.cp0.errorEPC := rfl
@[simp] theorem takeException_ebase (e : GeneralException) : (takeException e s).cp0.ebase = s.cp0.ebase := rfl
@[simp] theorem takeException_tagLo (e : GeneralException) : (takeException e s).cp0.tagLo = s.cp0.tagLo := rfl
@[simp] theorem takeException_tagHi (e : GeneralException) : (takeException e s).cp0.tagHi = s.cp0.tagHi := rfl
@[simp] theorem takeException_status (e : GeneralException) :
    (takeException e s).cp0.status = { s.cp0.status with exl := true } := rfl
@[simp] theorem takeException_cause (e : GeneralException) :
    (takeException e s).cp0.cause =
      { s.cp0.cause with
        bd := if s.cp0.status.exl then s.cp0.cause.bd else s.inDelaySlot
        ce := e.causeCE s.freeWord
        excCode := e.code } := rfl
@[simp] theorem exceptionReturn_cp0 :
    (exceptionReturn s).cp0 =
      { s.cp0 with
        status := { s.cp0.status with
          erl := false
          exl := if s.cp0.status.erl then s.cp0.status.exl else false } } := rfl
@[simp] theorem endStep_cp0 :
    s.endStep.cp0 = { s.cp0 with count := s.nextCount, cause := { s.cp0.cause with timer := s.nextTimer } } := rfl
@[simp] theorem nmiEntry_cp0 :
    (nmiEntry s).cp0 =
      { s.cp0 with status := ErrorException.nmi.status s.cp0.status, errorEPC := s.restartAddress } := rfl

end Sys2Proof.Machine
end

