-- ==== Sys2Proof/Laws/Ops.lean ====
section
/-! SUPPORT. The read operations on the state after each update, and what each shared operation on registers and on the
usable check can do. -/

namespace Sys2Proof.Machine

variable (s : State)

/-! ## Registers -/

theorem State.reg_zero : s.reg 0#5 = 0 := by simp [State.reg]

/-- A register read sees only the registers. -/
theorem State.reg_congr {t : State} (h : t.regs = s.regs) (r : Reg) : t.reg r = s.reg r := by
  simp only [State.reg, h]

theorem State.reg_setReg (i : Reg) (v : Word) (r : Reg) :
    (s.setReg i v).reg r = if r = i ∧ i ≠ 0#5 then v else s.reg r := by
  by_cases hi : i = 0#5
  · simp [State.reg, State.setReg, hi]
  · by_cases hr : r = i
    · subst hr; simp [State.reg, State.setReg, hi]
    · have hne : i.toNat ≠ r.toNat := fun h => hr (BitVec.eq_of_toNat_eq h.symm)
      simp [State.reg, State.setReg, hi, hr, hne]

theorem State.reg_setReg_ne {i r : Reg} (v : Word) (h : r ≠ i) : (s.setReg i v).reg r = s.reg r := by
  rw [State.reg_setReg, if_neg (fun hc => h hc.1)]

theorem State.reg_setReg_same {i : Reg} (v : Word) (h : i ≠ 0#5) : (s.setReg i v).reg i = v := by
  rw [State.reg_setReg, if_pos ⟨rfl, h⟩]

/-- Writing r0 changes nothing (R21). -/
theorem State.setReg_zero (v : Word) : s.setReg 0#5 v = s := by simp [State.setReg]

/-- The entry of r0 is never written (R21). -/
theorem State.setReg_entry_zero (i : Reg) (v : Word) : (s.setReg i v).regs[0] = s.regs[0] := by
  by_cases hi : i = 0#5
  · simp [State.setReg, hi]
  · have : i.toNat ≠ 0 := fun h => hi (BitVec.eq_of_toNat_eq h)
    simp [State.setReg, hi, this]

/-! ## Coprocessors -/

theorem State.cop_setCop (z y : Cop) (c : Coprocessor) : (s.setCop z c).cop y = if y = z then c else s.cop y := by
  cases z <;> cases y <;> rfl

theorem State.cpr_setCpr_same (z : Cop) (n : Reg) (v : Word) : (s.setCpr z n v).cpr z n = v := by
  simp [State.cpr, State.setCpr, State.cop_setCop]

theorem State.cpr_setCpr_ne (z : Cop) {n m : Reg} (v : Word) (h : m ≠ n) : (s.setCpr z n v).cpr z m = s.cpr z m := by
  have : n.toNat ≠ m.toNat := fun e => h (BitVec.eq_of_toNat_eq e.symm)
  simp [State.cpr, State.setCpr, State.cop_setCop, this]

theorem State.cpr_setCpr_other {z y : Cop} (n m : Reg) (v : Word) (h : y ≠ z) :
    (s.setCpr z n v).cpr y m = s.cpr y m := by
  simp [State.cpr, State.setCpr, State.cop_setCop, h]

/-! ## Reads after updates that leave what they read alone -/

@[simp] theorem setReg_mode (i : Reg) (v : Word) : (s.setReg i v).mode = s.mode := rfl
@[simp] theorem setReg_bigEndian (i : Reg) (v : Word) : (s.setReg i v).bigEndian = s.bigEndian := rfl
@[simp] theorem setReg_cop (i : Reg) (v : Word) (z : Cop) : (s.setReg i v).cop z = s.cop z := rfl
@[simp] theorem setReg_dset (i : Reg) (v : Word) (a : Word) : (s.setReg i v).dset a = s.dset a := rfl
@[simp] theorem setReg_iset (i : Reg) (v : Word) (a : Word) : (s.setReg i v).iset a = s.iset a := rfl
@[simp] theorem setReg_freeWord (i : Reg) (v : Word) : (s.setReg i v).freeWord = s.freeWord := rfl
@[simp] theorem setReg_busError (i : Reg) (v : Word) (q : AccessKind) (a m : Nat) : (s.setReg i v).busError q a m = s.busError q a m := rfl

@[simp] theorem setCop_reg (z : Cop) (c : Coprocessor) (r : Reg) : (s.setCop z c).reg r = s.reg r := rfl
@[simp] theorem setCop_mode (z : Cop) (c : Coprocessor) : (s.setCop z c).mode = s.mode := rfl
@[simp] theorem setCop_bigEndian (z : Cop) (c : Coprocessor) : (s.setCop z c).bigEndian = s.bigEndian := rfl
@[simp] theorem setCop_dset (z : Cop) (c : Coprocessor) (a : Word) : (s.setCop z c).dset a = s.dset a := rfl
@[simp] theorem setCop_iset (z : Cop) (c : Coprocessor) (a : Word) : (s.setCop z c).iset a = s.iset a := rfl
@[simp] theorem setCop_freeWord (z : Cop) (c : Coprocessor) : (s.setCop z c).freeWord = s.freeWord := rfl
@[simp] theorem setCop_busError (z : Cop) (c : Coprocessor) (q : AccessKind) (a m : Nat) : (s.setCop z c).busError q a m = s.busError q a m := rfl

@[simp] theorem setCpr_reg (z : Cop) (n : Reg) (v : Word) (r : Reg) : (s.setCpr z n v).reg r = s.reg r := rfl
@[simp] theorem setCpr_mode (z : Cop) (n : Reg) (v : Word) : (s.setCpr z n v).mode = s.mode := rfl
@[simp] theorem setCpr_bigEndian (z : Cop) (n : Reg) (v : Word) : (s.setCpr z n v).bigEndian = s.bigEndian := rfl
@[simp] theorem setCpr_dset (z : Cop) (n : Reg) (v : Word) (a : Word) : (s.setCpr z n v).dset a = s.dset a := rfl
@[simp] theorem setCpr_iset (z : Cop) (n : Reg) (v : Word) (a : Word) : (s.setCpr z n v).iset a = s.iset a := rfl
@[simp] theorem setCpr_freeWord (z : Cop) (n : Reg) (v : Word) : (s.setCpr z n v).freeWord = s.freeWord := rfl
@[simp] theorem setCpr_busError (z : Cop) (n : Reg) (v : Word) (q : AccessKind) (a m : Nat) : (s.setCpr z n v).busError q a m = s.busError q a m := rfl

@[simp] theorem setAcc_reg (v : BitVec 64) (r : Reg) : (s.setAcc v).reg r = s.reg r := rfl
@[simp] theorem setAcc_mode (v : BitVec 64) : (s.setAcc v).mode = s.mode := rfl
@[simp] theorem setAcc_bigEndian (v : BitVec 64) : (s.setAcc v).bigEndian = s.bigEndian := rfl
@[simp] theorem setAcc_cop (v : BitVec 64) (z : Cop) : (s.setAcc v).cop z = s.cop z := rfl
@[simp] theorem setAcc_dset (v : BitVec 64) (a : Word) : (s.setAcc v).dset a = s.dset a := rfl
@[simp] theorem setAcc_iset (v : BitVec 64) (a : Word) : (s.setAcc v).iset a = s.iset a := rfl
@[simp] theorem setAcc_freeWord (v : BitVec 64) : (s.setAcc v).freeWord = s.freeWord := rfl
@[simp] theorem setAcc_busError (v : BitVec 64) (q : AccessKind) (a m : Nat) : (s.setAcc v).busError q a m = s.busError q a m := rfl

@[simp] theorem openHiLo_reg (r : Reg) : (s.openHiLo).reg r = s.reg r := rfl
@[simp] theorem openHiLo_mode : (s.openHiLo).mode = s.mode := rfl
@[simp] theorem openHiLo_bigEndian : (s.openHiLo).bigEndian = s.bigEndian := rfl
@[simp] theorem openHiLo_cop (z : Cop) : (s.openHiLo).cop z = s.cop z := rfl
@[simp] theorem openHiLo_dset (a : Word) : (s.openHiLo).dset a = s.dset a := rfl
@[simp] theorem openHiLo_iset (a : Word) : (s.openHiLo).iset a = s.iset a := rfl
@[simp] theorem openHiLo_freeWord : (s.openHiLo).freeWord = s.freeWord := rfl
@[simp] theorem openHiLo_busError (q : AccessKind) (a m : Nat) : (s.openHiLo).busError q a m = s.busError q a m := rfl

@[simp] theorem drawn_reg (n : Nat) (r : Reg) : (s.drawn n).reg r = s.reg r := rfl
@[simp] theorem drawn_mode (n : Nat) : (s.drawn n).mode = s.mode := rfl
@[simp] theorem drawn_bigEndian (n : Nat) : (s.drawn n).bigEndian = s.bigEndian := rfl
@[simp] theorem drawn_cop (n : Nat) (z : Cop) : (s.drawn n).cop z = s.cop z := rfl
@[simp] theorem drawn_dset (n : Nat) (a : Word) : (s.drawn n).dset a = s.dset a := rfl
@[simp] theorem drawn_iset (n : Nat) (a : Word) : (s.drawn n).iset a = s.iset a := rfl
@[simp] theorem drawn_busError (n : Nat) (q : AccessKind) (a m : Nat) : (s.drawn n).busError q a m = s.busError q a m := rfl

@[simp] theorem retire_reg (k : Retired) (r : Reg) : (s.retire k).reg r = s.reg r := rfl
@[simp] theorem retire_mode (k : Retired) : (s.retire k).mode = s.mode := rfl
@[simp] theorem retire_bigEndian (k : Retired) : (s.retire k).bigEndian = s.bigEndian := rfl
@[simp] theorem retire_cop (k : Retired) (z : Cop) : (s.retire k).cop z = s.cop z := rfl
@[simp] theorem retire_dset (k : Retired) (a : Word) : (s.retire k).dset a = s.dset a := rfl
@[simp] theorem retire_iset (k : Retired) (a : Word) : (s.retire k).iset a = s.iset a := rfl
@[simp] theorem retire_freeWord (k : Retired) : (s.retire k).freeWord = s.freeWord := rfl
@[simp] theorem retire_busError (k : Retired) (q : AccessKind) (a m : Nat) : (s.retire k).busError q a m = s.busError q a m := rfl

@[simp] theorem transfer_reg (v : Word) (r : Reg) : (s.transfer v).reg r = s.reg r := rfl
@[simp] theorem transfer_mode (v : Word) : (s.transfer v).mode = s.mode := rfl
@[simp] theorem transfer_bigEndian (v : Word) : (s.transfer v).bigEndian = s.bigEndian := rfl
@[simp] theorem transfer_cop (v : Word) (z : Cop) : (s.transfer v).cop z = s.cop z := rfl
@[simp] theorem transfer_dset (v : Word) (a : Word) : (s.transfer v).dset a = s.dset a := rfl
@[simp] theorem transfer_iset (v : Word) (a : Word) : (s.transfer v).iset a = s.iset a := rfl
@[simp] theorem transfer_freeWord (v : Word) : (s.transfer v).freeWord = s.freeWord := rfl
@[simp] theorem transfer_busError (v : Word) (q : AccessKind) (a m : Nat) : (s.transfer v).busError q a m = s.busError q a m := rfl

@[simp] theorem fallThrough_reg (r : Reg) : (s.fallThrough).reg r = s.reg r := rfl
@[simp] theorem fallThrough_mode : (s.fallThrough).mode = s.mode := rfl
@[simp] theorem fallThrough_bigEndian : (s.fallThrough).bigEndian = s.bigEndian := rfl
@[simp] theorem fallThrough_cop (z : Cop) : (s.fallThrough).cop z = s.cop z := rfl
@[simp] theorem fallThrough_dset (a : Word) : (s.fallThrough).dset a = s.dset a := rfl
@[simp] theorem fallThrough_iset (a : Word) : (s.fallThrough).iset a = s.iset a := rfl
@[simp] theorem fallThrough_freeWord : (s.fallThrough).freeWord = s.freeWord := rfl
@[simp] theorem fallThrough_busError (q : AccessKind) (a m : Nat) : (s.fallThrough).busError q a m = s.busError q a m := rfl

@[simp] theorem nullify_reg (r : Reg) : (s.nullify).reg r = s.reg r := rfl
@[simp] theorem nullify_mode : (s.nullify).mode = s.mode := rfl
@[simp] theorem nullify_bigEndian : (s.nullify).bigEndian = s.bigEndian := rfl
@[simp] theorem nullify_cop (z : Cop) : (s.nullify).cop z = s.cop z := rfl
@[simp] theorem nullify_dset (a : Word) : (s.nullify).dset a = s.dset a := rfl
@[simp] theorem nullify_iset (a : Word) : (s.nullify).iset a = s.iset a := rfl
@[simp] theorem nullify_freeWord : (s.nullify).freeWord = s.freeWord := rfl
@[simp] theorem nullify_busError (q : AccessKind) (a m : Nat) : (s.nullify).busError q a m = s.busError q a m := rfl

@[simp] theorem branchLink_mode (b : Bool) : (s.branchLink b).mode = s.mode := rfl
@[simp] theorem branchLink_bigEndian (b : Bool) : (s.branchLink b).bigEndian = s.bigEndian := rfl
@[simp] theorem branchLink_cop (b : Bool) (z : Cop) : (s.branchLink b).cop z = s.cop z := rfl
@[simp] theorem branchLink_dset (b : Bool) (a : Word) : (s.branchLink b).dset a = s.dset a := rfl
@[simp] theorem branchLink_iset (b : Bool) (a : Word) : (s.branchLink b).iset a = s.iset a := rfl
@[simp] theorem branchLink_busError (b : Bool) (q : AccessKind) (a m : Nat) : (s.branchLink b).busError q a m = s.busError q a m := rfl

@[simp] theorem takeException_reg (e : GeneralException) (r : Reg) : (takeException e s).reg r = s.reg r := rfl
@[simp] theorem takeException_cop (e : GeneralException) (z : Cop) : (takeException e s).cop z = s.cop z := rfl
@[simp] theorem takeException_dset (e : GeneralException) (a : Word) : (takeException e s).dset a = s.dset a := rfl
@[simp] theorem takeException_iset (e : GeneralException) (a : Word) : (takeException e s).iset a = s.iset a := rfl
@[simp] theorem takeException_busError (e : GeneralException) (q : AccessKind) (a m : Nat) : (takeException e s).busError q a m = s.busError q a m := rfl

@[simp] theorem exceptionReturn_reg (r : Reg) : (exceptionReturn s).reg r = s.reg r := rfl
@[simp] theorem exceptionReturn_cop (z : Cop) : (exceptionReturn s).cop z = s.cop z := rfl
@[simp] theorem exceptionReturn_dset (a : Word) : (exceptionReturn s).dset a = s.dset a := rfl
@[simp] theorem exceptionReturn_iset (a : Word) : (exceptionReturn s).iset a = s.iset a := rfl
@[simp] theorem exceptionReturn_freeWord : (exceptionReturn s).freeWord = s.freeWord := rfl
@[simp] theorem exceptionReturn_busError (q : AccessKind) (a m : Nat) : (exceptionReturn s).busError q a m = s.busError q a m := rfl

@[simp] theorem setIset_reg (va : Word) (c : CacheSet Unit) (r : Reg) : (s.setIset va c).reg r = s.reg r := rfl
@[simp] theorem setIset_mode (va : Word) (c : CacheSet Unit) : (s.setIset va c).mode = s.mode := rfl
@[simp] theorem setIset_bigEndian (va : Word) (c : CacheSet Unit) : (s.setIset va c).bigEndian = s.bigEndian := rfl
@[simp] theorem setIset_cop (va : Word) (c : CacheSet Unit) (z : Cop) : (s.setIset va c).cop z = s.cop z := rfl
@[simp] theorem setIset_dset (va : Word) (c : CacheSet Unit) (a : Word) : (s.setIset va c).dset a = s.dset a := rfl
@[simp] theorem setIset_freeWord (va : Word) (c : CacheSet Unit) : (s.setIset va c).freeWord = s.freeWord := rfl
@[simp] theorem setIset_busError (va : Word) (c : CacheSet Unit) (q : AccessKind) (a m : Nat) : (s.setIset va c).busError q a m = s.busError q a m := rfl

@[simp] theorem setDset_reg (va : Word) (c : CacheSet Bool) (r : Reg) : (s.setDset va c).reg r = s.reg r := rfl
@[simp] theorem setDset_mode (va : Word) (c : CacheSet Bool) : (s.setDset va c).mode = s.mode := rfl
@[simp] theorem setDset_bigEndian (va : Word) (c : CacheSet Bool) : (s.setDset va c).bigEndian = s.bigEndian := rfl
@[simp] theorem setDset_cop (va : Word) (c : CacheSet Bool) (z : Cop) : (s.setDset va c).cop z = s.cop z := rfl
@[simp] theorem setDset_iset (va : Word) (c : CacheSet Bool) (a : Word) : (s.setDset va c).iset a = s.iset a := rfl
@[simp] theorem setDset_freeWord (va : Word) (c : CacheSet Bool) : (s.setDset va c).freeWord = s.freeWord := rfl
@[simp] theorem setDset_busError (va : Word) (c : CacheSet Bool) (q : AccessKind) (a m : Nat) : (s.setDset va c).busError q a m = s.busError q a m := rfl

@[simp] theorem drainWriteback_reg (r : Reg) : (s.drainWriteback).reg r = s.reg r := rfl
@[simp] theorem drainWriteback_mode : (s.drainWriteback).mode = s.mode := rfl
@[simp] theorem drainWriteback_bigEndian : (s.drainWriteback).bigEndian = s.bigEndian := rfl
@[simp] theorem drainWriteback_cop (z : Cop) : (s.drainWriteback).cop z = s.cop z := rfl
@[simp] theorem drainWriteback_dset (a : Word) : (s.drainWriteback).dset a = s.dset a := rfl
@[simp] theorem drainWriteback_iset (a : Word) : (s.drainWriteback).iset a = s.iset a := rfl
@[simp] theorem drainWriteback_freeWord : (s.drainWriteback).freeWord = s.freeWord := rfl
@[simp] theorem drainWriteback_busError (q : AccessKind) (a m : Nat) : (s.drainWriteback).busError q a m = s.busError q a m := rfl

@[simp] theorem pushWriteback_reg (va : Word) (d : Line) (r : Reg) : (s.pushWriteback va d).reg r = s.reg r := rfl
@[simp] theorem pushWriteback_mode (va : Word) (d : Line) : (s.pushWriteback va d).mode = s.mode := rfl
@[simp] theorem pushWriteback_bigEndian (va : Word) (d : Line) : (s.pushWriteback va d).bigEndian = s.bigEndian := rfl
@[simp] theorem pushWriteback_cop (va : Word) (d : Line) (z : Cop) : (s.pushWriteback va d).cop z = s.cop z := rfl
@[simp] theorem pushWriteback_dset (va : Word) (d : Line) (a : Word) : (s.pushWriteback va d).dset a = s.dset a := rfl
@[simp] theorem pushWriteback_iset (va : Word) (d : Line) (a : Word) : (s.pushWriteback va d).iset a = s.iset a := rfl
@[simp] theorem pushWriteback_freeWord (va : Word) (d : Line) : (s.pushWriteback va d).freeWord = s.freeWord := rfl
@[simp] theorem pushWriteback_busError (va : Word) (d : Line) (q : AccessKind) (a m : Nat) : (s.pushWriteback va d).busError q a m = s.busError q a m := rfl

@[simp] theorem settleLine_reg (va : Word) (r : Reg) : (s.settleLine va).reg r = s.reg r := rfl
@[simp] theorem settleLine_mode (va : Word) : (s.settleLine va).mode = s.mode := rfl
@[simp] theorem settleLine_bigEndian (va : Word) : (s.settleLine va).bigEndian = s.bigEndian := rfl
@[simp] theorem settleLine_cop (va : Word) (z : Cop) : (s.settleLine va).cop z = s.cop z := rfl
@[simp] theorem settleLine_dset (va : Word) (a : Word) : (s.settleLine va).dset a = s.dset a := rfl
@[simp] theorem settleLine_iset (va : Word) (a : Word) : (s.settleLine va).iset a = s.iset a := rfl
@[simp] theorem settleLine_freeWord (va : Word) : (s.settleLine va).freeWord = s.freeWord := rfl
@[simp] theorem settleLine_busError (va : Word) (q : AccessKind) (a m : Nat) : (s.settleLine va).busError q a m = s.busError q a m := rfl

@[simp] theorem drainStores_reg (r : Reg) : (s.drainStores).reg r = s.reg r := rfl
@[simp] theorem drainStores_mode : (s.drainStores).mode = s.mode := rfl
@[simp] theorem drainStores_bigEndian : (s.drainStores).bigEndian = s.bigEndian := rfl
@[simp] theorem drainStores_cop (z : Cop) : (s.drainStores).cop z = s.cop z := rfl
@[simp] theorem drainStores_dset (a : Word) : (s.drainStores).dset a = s.dset a := rfl
@[simp] theorem drainStores_iset (a : Word) : (s.drainStores).iset a = s.iset a := rfl
@[simp] theorem drainStores_freeWord : (s.drainStores).freeWord = s.freeWord := rfl
@[simp] theorem drainStores_busError (q : AccessKind) (a m : Nat) : (s.drainStores).busError q a m = s.busError q a m := rfl

@[simp] theorem pushStore_reg (va : Word) (bs : List Byte) (r : Reg) : (s.pushStore va bs).reg r = s.reg r := by cases s; rfl
@[simp] theorem pushStore_mode (va : Word) (bs : List Byte) : (s.pushStore va bs).mode = s.mode := by cases s; rfl
@[simp] theorem pushStore_bigEndian (va : Word) (bs : List Byte) : (s.pushStore va bs).bigEndian = s.bigEndian := by cases s; rfl
@[simp] theorem pushStore_cop (va : Word) (bs : List Byte) (z : Cop) : (s.pushStore va bs).cop z = s.cop z := by cases s; rfl
@[simp] theorem pushStore_dset (va : Word) (bs : List Byte) (a : Word) : (s.pushStore va bs).dset a = s.dset a := by cases s; rfl
@[simp] theorem pushStore_iset (va : Word) (bs : List Byte) (a : Word) : (s.pushStore va bs).iset a = s.iset a := by cases s; rfl
@[simp] theorem pushStore_freeWord (va : Word) (bs : List Byte) : (s.pushStore va bs).freeWord = s.freeWord := by cases s; rfl
@[simp] theorem pushStore_busError (va : Word) (bs : List Byte) (q : AccessKind) (a m : Nat) : (s.pushStore va bs).busError q a m = s.busError q a m := by cases s; rfl

@[simp] theorem evict_reg (va : Word) (w : WaySel) (r : Reg) : (s.evict va w).reg r = s.reg r := rfl
@[simp] theorem evict_mode (va : Word) (w : WaySel) : (s.evict va w).mode = s.mode := rfl
@[simp] theorem evict_bigEndian (va : Word) (w : WaySel) : (s.evict va w).bigEndian = s.bigEndian := rfl
@[simp] theorem evict_cop (va : Word) (w : WaySel) (z : Cop) : (s.evict va w).cop z = s.cop z := rfl
@[simp] theorem evict_dset (va : Word) (w : WaySel) (a : Word) : (s.evict va w).dset a = s.dset a := rfl
@[simp] theorem evict_iset (va : Word) (w : WaySel) (a : Word) : (s.evict va w).iset a = s.iset a := rfl
@[simp] theorem evict_freeWord (va : Word) (w : WaySel) : (s.evict va w).freeWord = s.freeWord := rfl
@[simp] theorem evict_busError (va : Word) (w : WaySel) (q : AccessKind) (a m : Nat) : (s.evict va w).busError q a m = s.busError q a m := rfl

@[simp] theorem fillDset_reg (va : Word) (w : WaySel) (r : Reg) : (s.fillDset va w).reg r = s.reg r := rfl
@[simp] theorem fillDset_mode (va : Word) (w : WaySel) : (s.fillDset va w).mode = s.mode := rfl
@[simp] theorem fillDset_bigEndian (va : Word) (w : WaySel) : (s.fillDset va w).bigEndian = s.bigEndian := rfl
@[simp] theorem fillDset_cop (va : Word) (w : WaySel) (z : Cop) : (s.fillDset va w).cop z = s.cop z := rfl
@[simp] theorem fillDset_iset (va : Word) (w : WaySel) (a : Word) : (s.fillDset va w).iset a = s.iset a := rfl
@[simp] theorem fillDset_freeWord (va : Word) (w : WaySel) : (s.fillDset va w).freeWord = s.freeWord := rfl
@[simp] theorem fillDset_busError (va : Word) (w : WaySel) (q : AccessKind) (a m : Nat) : (s.fillDset va w).busError q a m = s.busError q a m := rfl

@[simp] theorem fillIset_reg (va : Word) (w : WaySel) (r : Reg) : (s.fillIset va w).reg r = s.reg r := rfl
@[simp] theorem fillIset_mode (va : Word) (w : WaySel) : (s.fillIset va w).mode = s.mode := rfl
@[simp] theorem fillIset_bigEndian (va : Word) (w : WaySel) : (s.fillIset va w).bigEndian = s.bigEndian := rfl
@[simp] theorem fillIset_cop (va : Word) (w : WaySel) (z : Cop) : (s.fillIset va w).cop z = s.cop z := rfl
@[simp] theorem fillIset_dset (va : Word) (w : WaySel) (a : Word) : (s.fillIset va w).dset a = s.dset a := rfl
@[simp] theorem fillIset_freeWord (va : Word) (w : WaySel) : (s.fillIset va w).freeWord = s.freeWord := rfl
@[simp] theorem fillIset_busError (va : Word) (w : WaySel) (q : AccessKind) (a m : Nat) : (s.fillIset va w).busError q a m = s.busError q a m := rfl

@[simp] theorem touchD_reg (va : Word) (w : WaySel) (r : Reg) : (s.touchD va w).reg r = s.reg r := rfl
@[simp] theorem touchD_mode (va : Word) (w : WaySel) : (s.touchD va w).mode = s.mode := rfl
@[simp] theorem touchD_bigEndian (va : Word) (w : WaySel) : (s.touchD va w).bigEndian = s.bigEndian := rfl
@[simp] theorem touchD_cop (va : Word) (w : WaySel) (z : Cop) : (s.touchD va w).cop z = s.cop z := rfl
@[simp] theorem touchD_iset (va : Word) (w : WaySel) (a : Word) : (s.touchD va w).iset a = s.iset a := rfl
@[simp] theorem touchD_freeWord (va : Word) (w : WaySel) : (s.touchD va w).freeWord = s.freeWord := rfl
@[simp] theorem touchD_busError (va : Word) (w : WaySel) (q : AccessKind) (a m : Nat) : (s.touchD va w).busError q a m = s.busError q a m := rfl

@[simp] theorem touchI_reg (va : Word) (w : WaySel) (r : Reg) : (s.touchI va w).reg r = s.reg r := rfl
@[simp] theorem touchI_mode (va : Word) (w : WaySel) : (s.touchI va w).mode = s.mode := rfl
@[simp] theorem touchI_bigEndian (va : Word) (w : WaySel) : (s.touchI va w).bigEndian = s.bigEndian := rfl
@[simp] theorem touchI_cop (va : Word) (w : WaySel) (z : Cop) : (s.touchI va w).cop z = s.cop z := rfl
@[simp] theorem touchI_dset (va : Word) (w : WaySel) (a : Word) : (s.touchI va w).dset a = s.dset a := rfl
@[simp] theorem touchI_freeWord (va : Word) (w : WaySel) : (s.touchI va w).freeWord = s.freeWord := rfl
@[simp] theorem touchI_busError (va : Word) (w : WaySel) (q : AccessKind) (a m : Nat) : (s.touchI va w).busError q a m = s.busError q a m := rfl

@[simp] theorem writebackWay_reg (va : Word) (w : WaySel) (r : Reg) : (s.writebackWay va w).reg r = s.reg r := rfl
@[simp] theorem writebackWay_mode (va : Word) (w : WaySel) : (s.writebackWay va w).mode = s.mode := rfl
@[simp] theorem writebackWay_bigEndian (va : Word) (w : WaySel) : (s.writebackWay va w).bigEndian = s.bigEndian := rfl
@[simp] theorem writebackWay_cop (va : Word) (w : WaySel) (z : Cop) : (s.writebackWay va w).cop z = s.cop z := rfl
@[simp] theorem writebackWay_iset (va : Word) (w : WaySel) (a : Word) : (s.writebackWay va w).iset a = s.iset a := rfl
@[simp] theorem writebackWay_freeWord (va : Word) (w : WaySel) : (s.writebackWay va w).freeWord = s.freeWord := rfl
@[simp] theorem writebackWay_busError (va : Word) (w : WaySel) (q : AccessKind) (a m : Nat) : (s.writebackWay va w).busError q a m = s.busError q a m := rfl

@[simp] theorem afterSc_mode (rt : Reg) (v : Word) : (s.afterSc rt v).mode = s.mode := rfl
@[simp] theorem afterSc_bigEndian (rt : Reg) (v : Word) : (s.afterSc rt v).bigEndian = s.bigEndian := rfl
@[simp] theorem afterSc_cop (rt : Reg) (v : Word) (z : Cop) : (s.afterSc rt v).cop z = s.cop z := rfl
@[simp] theorem afterSc_dset (rt : Reg) (v : Word) (a : Word) : (s.afterSc rt v).dset a = s.dset a := rfl
@[simp] theorem afterSc_iset (rt : Reg) (v : Word) (a : Word) : (s.afterSc rt v).iset a = s.iset a := rfl
@[simp] theorem afterSc_busError (rt : Reg) (v : Word) (q : AccessKind) (a m : Nat) : (s.afterSc rt v).busError q a m = s.busError q a m := rfl

@[simp] theorem endStep_reg (r : Reg) : (s.endStep).reg r = s.reg r := rfl
@[simp] theorem endStep_cop (z : Cop) : (s.endStep).cop z = s.cop z := rfl
@[simp] theorem endStep_dset (a : Word) : (s.endStep).dset a = s.dset a := rfl
@[simp] theorem endStep_iset (a : Word) : (s.endStep).iset a = s.iset a := rfl
@[simp] theorem endStep_busError (q : AccessKind) (a m : Nat) : (s.endStep).busError q a m = s.busError q a m := rfl

@[simp] theorem tick_reg (r : Reg) : (s.tick).reg r = s.reg r := rfl
@[simp] theorem tick_mode : (s.tick).mode = s.mode := rfl
@[simp] theorem tick_bigEndian : (s.tick).bigEndian = s.bigEndian := rfl
@[simp] theorem tick_dset (a : Word) : (s.tick).dset a = s.dset a := rfl
@[simp] theorem tick_iset (a : Word) : (s.tick).iset a = s.iset a := rfl
@[simp] theorem tick_freeWord : (s.tick).freeWord = s.freeWord := rfl
@[simp] theorem tick_busError (q : AccessKind) (a m : Nat) : (s.tick).busError q a m = s.busError q a m := rfl

@[simp] theorem applyInput_reg (i : Input) (rest : List Input) (r : Reg) : (s.applyInput i rest).reg r = s.reg r := rfl
@[simp] theorem applyInput_mode (i : Input) (rest : List Input) : (s.applyInput i rest).mode = s.mode := rfl
@[simp] theorem applyInput_bigEndian (i : Input) (rest : List Input) : (s.applyInput i rest).bigEndian = s.bigEndian := rfl
@[simp] theorem applyInput_cop (i : Input) (rest : List Input) (z : Cop) : (s.applyInput i rest).cop z = s.cop z := rfl
@[simp] theorem applyInput_dset (i : Input) (rest : List Input) (a : Word) : (s.applyInput i rest).dset a = s.dset a := rfl
@[simp] theorem applyInput_iset (i : Input) (rest : List Input) (a : Word) : (s.applyInput i rest).iset a = s.iset a := rfl
@[simp] theorem applyInput_freeWord (i : Input) (rest : List Input) : (s.applyInput i rest).freeWord = s.freeWord := rfl

@[simp] theorem nmiEntry_reg (r : Reg) : (nmiEntry s).reg r = s.reg r := rfl
@[simp] theorem nmiEntry_cop (z : Cop) : (nmiEntry s).cop z = s.cop z := rfl
@[simp] theorem nmiEntry_dset (a : Word) : (nmiEntry s).dset a = s.dset a := rfl
@[simp] theorem nmiEntry_iset (a : Word) : (nmiEntry s).iset a = s.iset a := rfl
@[simp] theorem nmiEntry_freeWord : (nmiEntry s).freeWord = s.freeWord := rfl
@[simp] theorem nmiEntry_busError (q : AccessKind) (a m : Nat) : (nmiEntry s).busError q a m = s.busError q a m := rfl

/-! ## The usable check (R350) -/

/-- What `requireCp0` can do. -/
theorem requireCp0_cases (k : Result) :
    requireCp0 s k = k ∨ requireCp0 s k = raise (.cpU 0) s ∨ requireCp0 s k = .refused .reservedMode := by
  unfold requireCp0
  split
  · exact .inl rfl
  · split <;> simp

/-- Where CP0 is usable, the instruction goes on. -/
theorem requireCp0_usable {k : Result} (h : s.cp0.status.cu.getLsbD 0 = true ∨ s.mode = some .kernel) :
    requireCp0 s k = k := by
  unfold requireCp0
  split
  · rfl
  · next hc => rcases h with h | h
               · exact absurd h hc
               · rw [h]

/-- What `requireCop` can do. -/
theorem requireCop_cases (z : Cop) (k : Result) :
    requireCop z s k = k ∨ requireCop z s k = raise (.cpU (copNumber z)) s ∨
      requireCop z s k = .refused .cop3Absent := by
  unfold requireCop
  split
  · cases z <;> simp
  · exact .inr (.inl rfl)

/-- Where coprocessor 1 or 2 is usable, the instruction goes on. -/
theorem requireCop_usable {z : Cop} {k : Result} (hz : z ≠ .cp3) (h : s.copUsable z = true) : requireCop z s k = k := by
  cases z <;> simp_all [requireCop]

/-! ## Bind and complete -/

theorem Access.complete_next {α : Type} {a : Access α} {k : α → State → State} {t : State}
    (h : a.complete s k = .next t) :
    (∃ v u, a = .ok v u ∧ t = k v u) ∨ (∃ e, a = .raise e ∧ t = takeException e s) := by
  cases a with
  | ok v u => exact .inl ⟨v, u, rfl, by simpa [Access.complete] using h.symm⟩
  | raise e => exact .inr ⟨e, rfl, by simpa [Access.complete, Machine.raise] using h.symm⟩
  | refuse r => cases h

theorem Access.bind_ok {α β : Type} {a : Access α} {k : α → State → Access β} {v : β} {t : State}
    (h : a.bind k = .ok v t) : ∃ x u, a = .ok x u ∧ k x u = .ok v t := by
  cases a with
  | ok x u => exact ⟨x, u, rfl, h⟩
  | raise e => cases h
  | refuse r => cases h

end Sys2Proof.Machine
end

