-- ==== Sys2Proof/Laws/Cache.lean ====
section
/-! SUPPORT. Cache sets, lines and buffers: what each operation on them can do. -/

namespace Sys2Proof.Machine

/-! ## One set -/

section Sets

variable {δ : Type} (c : CacheSet δ)

@[simp] theorem CacheSet.way_setWay (w v : WaySel) (x : Way δ) :
    (c.setWay w x).way v = if v = w then x else c.way v := by
  cases w <;> cases v <;> rfl

@[simp] theorem CacheSet.lock_setWay (w : WaySel) (x : Way δ) : (c.setWay w x).lock = c.lock := rfl

@[simp] theorem CacheSet.lru_setWay (w : WaySel) (x : Way δ) : (c.setWay w x).lru = c.lru := rfl

@[simp] theorem CacheSet.way_touch (w v : WaySel) : (c.touch w).way v = c.way v := by cases v <;> rfl

@[simp] theorem CacheSet.lock_touch (w : WaySel) : (c.touch w).lock = c.lock := rfl

/-- A line that is found is valid and has the tag. -/
theorem CacheSet.find_some {tag : BitVec 19} {w : WaySel} (h : c.find tag = some w) :
    (c.way w).valid = true ∧ (c.way w).tag = tag := by
  unfold CacheSet.find at h
  split at h
  · next hc =>
    cases h
    simpa [CacheSet.way] using hc
  · split at h
    · next hc =>
      cases h
      simpa [CacheSet.way] using hc
    · cases h

/-- A line that is not found is in neither way. -/
theorem CacheSet.find_none {tag : BitVec 19} (h : c.find tag = none) (w : WaySel) :
    ((c.way w).valid && (c.way w).tag == tag) = false := by
  unfold CacheSet.find at h
  split at h
  · cases h
  · next ha =>
    split at h
    · cases h
    · next hb => cases w <;> simp_all [CacheSet.way]

/-- Only the valid bits and the tags decide what is found. -/
theorem CacheSet.find_congr {d : CacheSet δ} (tag : BitVec 19)
    (hv : ∀ w, (d.way w).valid = (c.way w).valid) (ht : ∀ w, (d.way w).tag = (c.way w).tag) :
    d.find tag = c.find tag := by
  have va := hv .a; have vb := hv .b; have ta := ht .a; have tb := ht .b
  simp only [CacheSet.way] at va vb ta tb
  simp only [CacheSet.find, va, vb, ta, tb]

@[simp] theorem CacheSet.find_touch (w : WaySel) (tag : BitVec 19) : (c.touch w).find tag = c.find tag :=
  CacheSet.find_congr c tag (fun _ => by rw [CacheSet.way_touch]) (fun _ => by rw [CacheSet.way_touch])

/-- After a fill the line is found in the filled way. -/
theorem CacheSet.find_fill {tag : BitVec 19} (h : c.find tag = none) (w : WaySel) (x : Way δ) (hv : x.valid = true)
    (ht : x.tag = tag) : (c.setWay w x).find tag = some w := by
  have ha := CacheSet.find_none c h .a
  cases w <;> simp_all [CacheSet.find, CacheSet.setWay, CacheSet.way]

end Sets

/-! ## Lines -/

theorem lineByte_congr {d : Line} {a b : Word} (h : lineOffset a = lineOffset b) : lineByte d a = lineByte d b := by
  simp only [lineByte, h]

theorem length_addresses (va : Word) (n : Nat) : (addresses va n).length = n := by
  induction n generalizing va with
  | zero => rfl
  | succ n ih => simp [addresses, ih]

theorem getElem_addresses (va : Word) (n i : Nat) (h : i < (addresses va n).length) :
    (addresses va n)[i] = va + BitVec.ofNat 32 i := by
  induction n generalizing va i with
  | zero => simp [addresses] at h
  | succ n ih =>
    cases i with
    | zero => simp [addresses]
    | succ i =>
      have hi : i < (addresses (va + 1) n).length := by simpa [addresses] using h
      simp only [addresses, List.getElem_cons_succ, ih (va + 1) i hi]
      apply BitVec.eq_of_toNat_eq
      have h1 : (1 : Word).toNat = 1 := rfl
      simp only [BitVec.toNat_add, BitVec.toNat_ofNat, h1]
      omega

theorem mem_addresses {va a : Word} {n : Nat} : a ∈ addresses va n ↔ ∃ i, i < n ∧ a = va + BitVec.ofNat 32 i := by
  constructor
  · intro h
    obtain ⟨i, hi, rfl⟩ := List.getElem_of_mem h
    exact ⟨i, by simpa [length_addresses] using hi, getElem_addresses va n i hi⟩
  · rintro ⟨i, hi, rfl⟩
    have hi' : i < (addresses va n).length := by simpa [length_addresses] using hi
    rw [← getElem_addresses va n i hi']
    exact List.getElem_mem hi'

/-- What a byte of a line reads as after bytes have been written to it, within one word. -/
theorem lineByte_lineWrite (d : Line) (va a : Word) (bs : List Byte) (hw : va.toNat % 4 + bs.length ≤ 4)
    (ha : SameLine a va) :
    lineByte (lineWrite d va bs) a =
      if h : va.toNat ≤ a.toNat ∧ a.toNat < va.toNat + bs.length then bs[a.toNat - va.toNat]'(by omega)
      else lineByte d a := by
  have hva := va.isLt
  have haa := a.isLt
  have hl := ha.line
  induction bs generalizing d va with
  | nil => simp [lineWrite]
  | cons b bs ih =>
    simp only [List.length_cons] at hw
    have key : lineByte (d.set (lineOffset va).toNat b (lineOffset va).isLt) a
        = if a.toNat = va.toNat then b else lineByte d a := by
      have : (lineOffset va).toNat = (lineOffset a).toNat ↔ a.toNat = va.toNat := by
        rw [toNat_lineOffset, toNat_lineOffset]
        omega
      simp only [lineByte, Vector.getElem_set]
      by_cases h : a.toNat = va.toNat
      · rw [if_pos h, if_pos (this.2 h)]
      · rw [if_neg h, if_neg (fun hc => h (this.1 hc))]
    rcases bs with _ | ⟨b', bs⟩
    · rw [lineWrite, lineWrite, key]
      simp only [List.length_cons, List.length_nil]
      by_cases h : a.toNat = va.toNat
      · simp [h]
      · rw [if_neg h, dif_neg (by omega)]
    · simp only [List.length_cons] at hw
      have hn : (va + 1).toNat = va.toNat + 1 := by
        have := toNat_add_of_word (va := va) (i := 1) (by omega)
        simpa using this
      rw [lineWrite, ih _ (va + 1) (by simp only [List.length_cons]; omega) ⟨by omega⟩ (va + 1).isLt (by omega), key]
      simp only [List.length_cons]
      by_cases h : a.toNat = va.toNat
      · rw [if_pos h, dif_neg (by omega), dif_pos (by omega)]
        simp [h]
      · rw [if_neg h]
        by_cases h2 : (va + 1).toNat ≤ a.toNat ∧ a.toNat < (va + 1).toNat + (bs.length + 1)
        · rw [dif_pos h2, dif_pos (by omega)]
          have e : a.toNat - va.toNat = (a.toNat - (va + 1).toNat) + 1 := by omega
          simp only [e, List.getElem_cons_succ]
        · rw [dif_neg h2, dif_neg (by omega)]

/-! ## The caches in the state -/

variable (s : State)

theorem State.dset_setDset (va a : Word) (c : CacheSet Bool) :
    (s.setDset va c).dset a = if setIndex a = setIndex va then c else s.dset a := by
  by_cases h : setIndex a = setIndex va
  · simp [State.dset, State.setDset, h]
  · have : (setIndex va).toNat ≠ (setIndex a).toNat := fun e => h (BitVec.eq_of_toNat_eq e.symm)
    simp [State.dset, State.setDset, h, this]

theorem State.iset_setIset (va a : Word) (c : CacheSet Unit) :
    (s.setIset va c).iset a = if setIndex a = setIndex va then c else s.iset a := by
  by_cases h : setIndex a = setIndex va
  · simp [State.iset, State.setIset, h]
  · have : (setIndex va).toNat ≠ (setIndex a).toNat := fun e => h (BitVec.eq_of_toNat_eq e.symm)
    simp [State.iset, State.setIset, h, this]

@[simp] theorem State.dset_setDset_same (va : Word) (c : CacheSet Bool) : (s.setDset va c).dset va = c := by
  rw [State.dset_setDset, if_pos rfl]

@[simp] theorem State.iset_setIset_same (va : Word) (c : CacheSet Unit) : (s.setIset va c).iset va = c := by
  rw [State.iset_setIset, if_pos rfl]

theorem State.dset_congr {a b : Word} (h : SameLine a b) : s.dset a = s.dset b := by
  simp only [State.dset, h.setIndex_eq]

/-! ## Data cache accesses -/

/-- What a data cache access can do: it finds the line and touches it, or fills and touches it, or the bus signals an error. -/
theorem dcacheAccess_cases (k : AccessKind) (va : Word) :
    (∃ w, (s.dset va).find (lineTag va) = some w ∧ dcacheAccess k va s = .ok w (s.touchD va w)) ∨
    ((s.dset va).find (lineTag va) = none ∧ s.busError k (physicalLine va) 64 = false ∧
      dcacheAccess k va s = .ok (s.victimD va)
        ((((s.settleLine va).evict va (s.victimD va)).fillDset va (s.victimD va)).touchD va (s.victimD va))) ∨
    ((s.dset va).find (lineTag va) = none ∧ s.busError k (physicalLine va) 64 = true ∧
      dcacheAccess k va s = .raise .dbe) := by
  unfold dcacheAccess dcacheFill
  cases hf : (s.dset va).find (lineTag va) with
  | some w => exact .inl ⟨w, rfl, rfl⟩
  | none =>
    by_cases hb : s.busError k (physicalLine va) 64 = true
    · exact .inr (.inr ⟨rfl, hb, by simp [hb]⟩)
    · exact .inr (.inl ⟨rfl, by simpa using hb, by simp [hb]⟩)

/-- What an instruction cache access can do. -/
theorem icacheAccess_cases (va : Word) :
    (∃ w, (s.iset va).find (lineTag va) = some w ∧ icacheAccess va s = .ok w (s.touchI va w)) ∨
    ((s.iset va).find (lineTag va) = none ∧ s.busError .fetch (physicalLine va) 64 = false ∧
      icacheAccess va s = .ok (s.victimI va) ((s.fillIset va (s.victimI va)).touchI va (s.victimI va))) ∨
    ((s.iset va).find (lineTag va) = none ∧ s.busError .fetch (physicalLine va) 64 = true ∧
      icacheAccess va s = .raise .ibe) := by
  unfold icacheAccess icacheFill
  cases hf : (s.iset va).find (lineTag va) with
  | some w => exact .inl ⟨w, rfl, rfl⟩
  | none =>
    by_cases hb : s.busError .fetch (physicalLine va) 64 = true
    · exact .inr (.inr ⟨rfl, hb, by simp [hb]⟩)
    · exact .inr (.inl ⟨rfl, by simpa using hb, by simp [hb]⟩)

/-- After a data cache access the line is found in the way that the access answers. -/
theorem dcacheAccess_find {k : AccessKind} {va : Word} {w : WaySel} {t : State} (h : dcacheAccess k va s = .ok w t) :
    (t.dset va).find (lineTag va) = some w := by
  rcases dcacheAccess_cases s k va with ⟨w', hf, he⟩ | ⟨hf, -, he⟩ | ⟨-, -, he⟩
  · rw [he] at h
    cases h
    simpa [State.touchD] using hf
  · rw [he] at h
    cases h
    simp only [State.touchD, State.dset_setDset_same, CacheSet.find_touch, State.fillDset, evict_dset, settleLine_dset]
    exact CacheSet.find_fill _ hf _ _ rfl rfl
  · rw [he] at h
    cases h

/-- The bytes that a data cache access makes available are those that `byteAt` names. -/
theorem dcacheAccess_byte {k : AccessKind} {va : Word} {w : WaySel} {t : State} (h : dcacheAccess k va s = .ok w t)
    (hc : cachedAddress va = true) {a : Word} (ha : SameLine a va) :
    lineByte ((t.dset va).way w).data a = s.byteAt a := by
  have hca : cachedAddress a = true := by rw [ha.cachedAddress_eq]; exact hc
  unfold State.byteAt
  rw [if_pos hca, s.dset_congr ha, ha.lineTag_eq]
  rcases dcacheAccess_cases s k va with ⟨w', hf, he⟩ | ⟨hf, -, he⟩ | ⟨-, -, he⟩
  · rw [he] at h
    cases h
    simp [State.touchD, hf]
  · rw [he] at h
    cases h
    rw [hf]
    have e1 : s.refillMemory a = s.refillMemory va := by
      have hw : s.writebackHolds a = s.writebackHolds va := by
        unfold State.writebackHolds
        rw [ha.lineTag_eq, ha.setIndex_eq]
      have hs : s.settleLine a = s.settleLine va := by simp only [State.settleLine, hw]
      have hv : s.victimD a = s.victimD va := by simp only [State.victimD, s.dset_congr ha]
      have he : ∀ (u : State) w, u.evict a w = u.evict va w := fun u w => by
        have hd : u.dirtyVictim a w = u.dirtyVictim va w := by simp only [State.dirtyVictim, u.dset_congr ha]
        simp only [State.evict, hd, u.dset_congr ha, ha.setIndex_eq]
      rw [State.refillMemory, State.refillMemory, hs, hv, he]
    simp only [State.touchD, State.dset_setDset_same, CacheSet.way_touch, State.fillDset, CacheSet.way_setWay, if_true]
    rw [e1, physical_offset a, ha.physicalLine_eq]
    simp only [lineByte, Environment.getElem_readLine, State.refillMemory, evict_env, settleLine_env]
  · rw [he] at h
    cases h

end Sys2Proof.Machine
end

