-- ==== Sys2Proof/Laws/Access.lean ====
section
/-! SUPPORT. The access primitives: what an address check, a load and a store can do. -/

namespace Sys2Proof.Machine

variable (s : State)

/-! ## Frames of the data side -/

theorem OnlyDataSide.refl : OnlyDataSide s s := rfl

theorem OnlyDataSide.trans {s t u : State} (h : OnlyDataSide s t) (g : OnlyDataSide t u) : OnlyDataSide s u := by
  unfold OnlyDataSide at *
  rw [g, h]

theorem OnlyDataSide.regs {s t : State} (h : OnlyDataSide s t) : t.regs = s.regs := by rw [h]

theorem OnlyDataSide.reg {s t : State} (h : OnlyDataSide s t) (r : Reg) : t.reg r = s.reg r :=
  s.reg_congr h.regs r

theorem OnlyDataSide.pc {s t : State} (h : OnlyDataSide s t) : t.pc = s.pc := by rw [h]

theorem OnlyDataSide.npc {s t : State} (h : OnlyDataSide s t) : t.npc = s.npc := by rw [h]

theorem OnlyDataSide.inDelaySlot {s t : State} (h : OnlyDataSide s t) : t.inDelaySlot = s.inDelaySlot := by rw [h]

theorem OnlyDataSide.hi {s t : State} (h : OnlyDataSide s t) : t.hi = s.hi := by rw [h]

theorem OnlyDataSide.lo {s t : State} (h : OnlyDataSide s t) : t.lo = s.lo := by rw [h]

theorem OnlyDataSide.llBit {s t : State} (h : OnlyDataSide s t) : t.llBit = s.llBit := by rw [h]

theorem OnlyDataSide.cp0 {s t : State} (h : OnlyDataSide s t) : t.cp0 = s.cp0 := by rw [h]

theorem OnlyDataSide.icache {s t : State} (h : OnlyDataSide s t) : t.icache = s.icache := by rw [h]

theorem OnlyDataSide.cop1 {s t : State} (h : OnlyDataSide s t) : t.cop1 = s.cop1 := by rw [h]

theorem OnlyDataSide.cop2 {s t : State} (h : OnlyDataSide s t) : t.cop2 = s.cop2 := by rw [h]

theorem OnlyDataSide.cop3 {s t : State} (h : OnlyDataSide s t) : t.cop3 = s.cop3 := by rw [h]

theorem OnlyDataSide.env {s t : State} (h : OnlyDataSide s t) : t.env = s.env := by rw [h]

theorem OnlyDataSide.last1 {s t : State} (h : OnlyDataSide s t) : t.last1 = s.last1 := by rw [h]

theorem OnlyDataSide.last2 {s t : State} (h : OnlyDataSide s t) : t.last2 = s.last2 := by rw [h]

theorem OnlyDataSide.freeCount {s t : State} (h : OnlyDataSide s t) : t.freeCount = s.freeCount := by rw [h]

/-! ## Address checks -/

/-- An access that is aligned and allowed passes the checks, and changes nothing. -/
theorem checkAddress_ok {k : AccessKind} {n : Nat} {va : Word} {m : Mode} (ha : aligned n va = true)
    (hm : s.mode = some m) (hp : allowedAddress m va = true) : checkAddress k n va s = .ok () s := by
  simp [checkAddress, ha, hm, hp]

/-- What the checks can do. -/
theorem checkAddress_cases (k : AccessKind) (n : Nat) (va : Word) :
    checkAddress k n va s = .ok () s ∨ checkAddress k n va s = .raise (addressError k va) ∨
      checkAddress k n va s = .refuse .reservedMode := by
  unfold checkAddress
  split
  · split
    · simp
    · split <;> simp
  · simp

/-- An access that passes the checks leaves the state alone. -/
theorem checkAddress_next {k : AccessKind} {n : Nat} {va : Word} {t : State} {v : Unit}
    (h : checkAddress k n va s = .ok v t) : t = s := by
  rcases checkAddress_cases s k n va with he | he | he <;> rw [he] at h <;> cases h
  rfl

/-! ## Data bytes -/

theorem dcacheAccess_frame {k : AccessKind} {va : Word} {w : WaySel} {t : State} (h : dcacheAccess k va s = .ok w t) :
    OnlyDataSide s t ∧ t.stores = s.stores := by
  rcases dcacheAccess_cases s k va with ⟨w', -, he⟩ | ⟨-, -, he⟩ | ⟨-, -, he⟩ <;> rw [he] at h <;> cases h
  · exact ⟨rfl, rfl⟩
  · exact ⟨rfl, rfl⟩

/-- A data cache access succeeds where the line is there or the bus gives it. -/
theorem dcacheAccess_ok {k : AccessKind} {va : Word}
    (h : (!s.dataHit va && s.busError k (physicalLine va) 64) = false) : ∃ w t, dcacheAccess k va s = .ok w t := by
  rcases dcacheAccess_cases s k va with ⟨w', -, he⟩ | ⟨-, -, he⟩ | ⟨hf, hb, -⟩
  · exact ⟨_, _, he⟩
  · exact ⟨_, _, he⟩
  · simp [State.dataHit, hf, hb] at h

theorem map_addresses_congr {β : Type} {f g : Word → β} {va : Word} {n : Nat} (hw : va.toNat % 4 + n ≤ 4)
    (h : ∀ a, SameLine a va → f a = g a) : (addresses va n).map f = (addresses va n).map g := by
  apply List.map_congr_left
  intro a ha
  obtain ⟨i, hi, rfl⟩ := mem_addresses.1 ha
  exact h _ (sameLine_add (by omega))

/-- Bytes that are loaded are those that `byteAt` names. -/
theorem loadBytes_next {va : Word} {n : Nat} {bs : List Byte} {t : State} (hw : va.toNat % 4 + n ≤ 4)
    (h : loadBytes va n s = .ok bs t) :
    OnlyDataSide s t ∧ t.stores = s.stores ∧ bs = (addresses va n).map s.byteAt := by
  unfold loadBytes at h
  split at h
  · next hc =>
    obtain ⟨w, u, hu, he⟩ := Access.bind_ok h
    cases he
    refine ⟨(dcacheAccess_frame s hu).1, (dcacheAccess_frame s hu).2, ?_⟩
    exact map_addresses_congr hw fun a ha => dcacheAccess_byte s hu hc ha
  · next hc =>
    split at h
    · cases h
    · cases h
      refine ⟨rfl, rfl, map_addresses_congr hw fun a ha => ?_⟩
      simp [State.byteAt, ha.cachedAddress_eq, hc]

/-- A load succeeds where no bus error stands in the way. -/
theorem loadBytes_ok {va : Word} {n : Nat} (hw : va.toNat % 4 + n ≤ 4) (hf : s.loadFails va n = false) :
    ∃ t, OnlyDataSide s t ∧ t.stores = s.stores ∧ loadBytes va n s = .ok ((addresses va n).map s.byteAt) t := by
  have key : ∃ bs t, loadBytes va n s = .ok bs t := by
    unfold loadBytes
    unfold State.loadFails at hf
    split
    · next hc =>
      rw [if_pos hc] at hf
      obtain ⟨w, t, h⟩ := dcacheAccess_ok s hf
      rw [h]
      exact ⟨_, _, rfl⟩
    · next hc =>
      rw [if_neg hc] at hf
      simp [hf]
  obtain ⟨bs, t, h⟩ := key
  obtain ⟨h1, h2, rfl⟩ := loadBytes_next s hw h
  exact ⟨t, h1, h2, h⟩

/-- What a load does when it succeeds (R103). -/
theorem memRead_ok {va : Word} {n : Nat} {m : Mode} (hw : va.toNat % 4 + n ≤ 4) (ha : aligned n va = true)
    (hm : s.mode = some m) (hp : allowedAddress m va = true) (hf : s.loadFails va n = false) :
    ∃ t, OnlyDataSide s t ∧ t.stores = s.stores ∧
      memRead va n s = .ok (assemble s.bigEndian ((addresses va n).map s.byteAt)) t := by
  obtain ⟨t, h1, h2, h3⟩ := loadBytes_ok s hw hf
  exact ⟨t, h1, h2, by simp [memRead, checkAddress_ok s ha hm hp, Access.bind, h3]⟩

/-- What a partial load does when it succeeds (R105). -/
theorem memReadPart_ok {va start : Word} {n : Nat} {m : Mode} (hw : start.toNat % 4 + n ≤ 4)
    (hm : s.mode = some m) (hp : allowedAddress m va = true) (hf : s.loadFails start n = false) :
    ∃ t, OnlyDataSide s t ∧ t.stores = s.stores ∧
      memReadPart va start n s = .ok (assemble s.bigEndian ((addresses start n).map s.byteAt)) t := by
  obtain ⟨t, h1, h2, h3⟩ := loadBytes_ok s hw hf
  have ha : aligned 1 va = true := rfl
  exact ⟨t, h1, h2, by simp [memReadPart, checkAddress_ok s ha hm hp, Access.bind, h3]⟩

/-- A load that succeeds changes nothing but the data side, and reads what `byteAt` names. -/
theorem memRead_next {va : Word} {n : Nat} {v : Word} {t : State} (hw : va.toNat % 4 + n ≤ 4)
    (h : memRead va n s = .ok v t) :
    OnlyDataSide s t ∧ t.stores = s.stores ∧ v = assemble s.bigEndian ((addresses va n).map s.byteAt) := by
  obtain ⟨_, u, hu, h⟩ := Access.bind_ok h
  obtain rfl := checkAddress_next s hu
  obtain ⟨bs, u', hu', h⟩ := Access.bind_ok h
  cases h
  obtain ⟨h1, h2, rfl⟩ := loadBytes_next u hw hu'
  exact ⟨h1, h2, rfl⟩

/-! ## Stores -/

/-- The newest buffered store gives its bytes. -/
theorem bufferedByte_append_same (es : List NcStore) (e : NcStore) (a : Word) {b : Byte} (h : e.byteAt a = some b) :
    bufferedByte (es ++ [e]) a = some b := by
  induction es with
  | nil => simp [bufferedByte, h]
  | cons e' es ih => simp [bufferedByte, ih]

/-- A store outside its own bytes hides nothing. -/
theorem bufferedByte_append_other (es : List NcStore) (e : NcStore) (a : Word) (h : e.byteAt a = none) :
    bufferedByte (es ++ [e]) a = bufferedByte es a := by
  induction es with
  | nil => simp [bufferedByte, h]
  | cons e' es ih => simp [bufferedByte, ih]

theorem byteAt_same (va : Word) (bs : List Byte) (i : Nat) (hi : i < bs.length) (hw : va.toNat % 4 + bs.length ≤ 4) :
    NcStore.byteAt { va := va, bytes := bs } (va + BitVec.ofNat 32 i) = some bs[i] := by
  have e : (va + BitVec.ofNat 32 i - va).toNat = i := by
    have := va.isLt
    simp only [BitVec.toNat_sub, BitVec.toNat_add, BitVec.toNat_ofNat]
    omega
  change bs[(va + BitVec.ofNat 32 i - va).toNat]? = some bs[i]
  rw [e]
  exact List.getElem?_eq_getElem hi

/-- A store succeeds where no bus error stands in the way, changes nothing but the data side, and its bytes read back. -/
theorem storeBytes_ok {va : Word} {bs : List Byte} (hw : va.toNat % 4 + bs.length ≤ 4) (hf : s.storeFails va = false) :
    ∃ t, OnlyDataSide s t ∧ storeBytes va bs s = .ok () t ∧
      ∀ i (h : i < bs.length), t.byteAt (va + BitVec.ofNat 32 i) = bs[i] := by
  unfold storeBytes
  by_cases hc : cachedAddress va = true
  · rw [if_pos hc]
    obtain ⟨w, u, hu⟩ := dcacheAccess_ok s (k := .store) (va := va) (by simpa [State.storeFails, hc] using hf)
    rw [hu]
    refine ⟨_, ?_, rfl, ?_⟩
    · exact OnlyDataSide.trans (dcacheAccess_frame s hu).1 rfl
    · intro i hi
      have hl := sameLine_add (va := va) (i := i) (by omega)
      have hfind := dcacheAccess_find s hu
      have hval := CacheSet.find_some _ hfind
      have hfind' : ((u.dset va).setWay w (((u.dset va).way w).store va bs)).find (lineTag va) = some w := by
        rw [CacheSet.find_congr (u.dset va) (lineTag va) ?_ ?_]
        · exact hfind
        · intro v
          by_cases hv : v = w
          · subst hv; simp [Way.store]
          · simp [hv]
        · intro v
          by_cases hv : v = w
          · subst hv; simp [Way.store]
          · simp [hv]
      unfold State.byteAt
      rw [if_pos (by rw [hl.cachedAddress_eq]; exact hc), State.dset_congr _ hl, hl.lineTag_eq,
        State.dset_setDset_same, hfind']
      simp only [CacheSet.way_setWay, if_true, Way.store]
      have hn := toNat_add_of_word (va := va) (i := i) (by omega)
      rw [lineByte_lineWrite _ _ _ _ hw hl, dif_pos (by omega)]
      simp only [hn]
      congr 1
      omega
  · rw [if_neg hc]
    refine ⟨_, ?_, rfl, ?_⟩
    · exact rfl
    · intro i hi
      have hl := sameLine_add (va := va) (i := i) (by omega)
      unfold State.byteAt
      rw [if_neg (by rw [hl.cachedAddress_eq]; exact hc)]
      simp only [State.nonCachedByte, pushStore_stores]
      rw [bufferedByte_append_same _ _ _ (byteAt_same va bs i hi hw)]

/-- A store that succeeds changes nothing but the data side. -/
theorem storeBytes_next {va : Word} {bs : List Byte} {v : Unit} {t : State} (h : storeBytes va bs s = .ok v t) :
    OnlyDataSide s t := by
  unfold storeBytes at h
  split at h
  · obtain ⟨w, u, hu, he⟩ := Access.bind_ok h
    cases he
    exact OnlyDataSide.trans (dcacheAccess_frame s hu).1 rfl
  · cases h
    exact rfl

theorem memWrite_next {va : Word} {n : Nat} {v : Word} {x : Unit} {t : State} (h : memWrite va n v s = .ok x t) :
    OnlyDataSide s t := by
  obtain ⟨_, u, hu, h⟩ := Access.bind_ok h
  obtain rfl := checkAddress_next s hu
  exact storeBytes_next u h

theorem memWritePart_next {va start : Word} {n : Nat} {v : Word} {x : Unit} {t : State}
    (h : memWritePart va start n v s = .ok x t) : OnlyDataSide s t := by
  obtain ⟨_, u, hu, h⟩ := Access.bind_ok h
  obtain rfl := checkAddress_next s hu
  exact storeBytes_next u h

theorem memReadPart_next {va start : Word} {n : Nat} {v : Word} {t : State} (hw : start.toNat % 4 + n ≤ 4)
    (h : memReadPart va start n s = .ok v t) :
    OnlyDataSide s t ∧ t.stores = s.stores ∧ v = assemble s.bigEndian ((addresses start n).map s.byteAt) := by
  obtain ⟨_, u, hu, h⟩ := Access.bind_ok h
  obtain rfl := checkAddress_next s hu
  obtain ⟨bs, u', hu', h⟩ := Access.bind_ok h
  cases h
  obtain ⟨h1, h2, rfl⟩ := loadBytes_next u hw hu'
  exact ⟨h1, h2, rfl⟩

theorem length_leBytes (n : Nat) (v : Word) : (leBytes n v).length = n := by
  induction n generalizing v with
  | zero => rfl
  | succ n ih => simp [leBytes, ih]

theorem length_layOut (b : Bool) (n : Nat) (v : Word) : (layOut b n v).length = n := by
  cases b <;> simp [layOut, length_leBytes]

/-- What a partial store does when it succeeds (R105). -/
theorem memWritePart_ok {va start : Word} {n : Nat} (v : Word) {m : Mode} (hw : start.toNat % 4 + n ≤ 4)
    (hm : s.mode = some m) (hp : allowedAddress m va = true) (hf : s.storeFails start = false) :
    ∃ t, OnlyDataSide s t ∧ memWritePart va start n v s = .ok () t ∧
      ∀ i (h : i < n),
        t.byteAt (start + BitVec.ofNat 32 i) = (layOut s.bigEndian n v)[i]'(by simpa [length_layOut] using h) := by
  obtain ⟨t, h1, h2, h3⟩ :=
    storeBytes_ok s (va := start) (bs := layOut s.bigEndian n v) (by simpa [length_layOut] using hw) hf
  have ha : aligned 1 va = true := rfl
  exact ⟨t, h1, by simp [memWritePart, checkAddress_ok s ha hm hp, Access.bind, h2],
    fun i h => h3 i (by simpa [length_layOut] using h)⟩

/-- What a store does when it succeeds (R104). -/
theorem memWrite_ok {va : Word} {n : Nat} (v : Word) {m : Mode} (hw : va.toNat % 4 + n ≤ 4) (ha : aligned n va = true)
    (hm : s.mode = some m) (hp : allowedAddress m va = true) (hf : s.storeFails va = false) :
    ∃ t, OnlyDataSide s t ∧ memWrite va n v s = .ok () t ∧
      ∀ i (h : i < n), t.byteAt (va + BitVec.ofNat 32 i) = (layOut s.bigEndian n v)[i]'(by simpa [length_layOut] using h) := by
  obtain ⟨t, h1, h2, h3⟩ := storeBytes_ok s (va := va) (bs := layOut s.bigEndian n v) (by simpa [length_layOut] using hw) hf
  exact ⟨t, h1, by simp [memWrite, checkAddress_ok s ha hm hp, Access.bind, h2],
    fun i h => h3 i (by simpa [length_layOut] using h)⟩

end Sys2Proof.Machine
end

