-- ==== Sys2Proof/Laws/DataSide.lean ====
section
/-! SUPPORT. What a load or store can do to memory and the buffers, and which bytes it leaves as they read. -/

namespace Sys2Proof.Machine

/-- A byte that no bus write in flight changes lies outside the line in the writeback buffer. -/
theorem writeback_outside {s : State} {w : Writeback} (h : s.writeback = some w) (a : Nat) (ha : a ∉ s.inFlight) : a < physical w.va ∨ physical w.va + 64 ≤ a := by
  simp only [State.inFlight, h, List.mem_append, not_or, Writeback.physicalBytes, List.mem_map, List.mem_range] at ha
  by_contra hc
  exact ha.1 ⟨a - physical w.va, by omega, by omega⟩

/-- Emptying the writeback buffer changes only bytes in flight. -/
theorem read_memAfterWriteback {s : State} (a : Nat) (ha : a ∉ s.inFlight) : s.memAfterWriteback.read a = s.mem.read a := by
  unfold State.memAfterWriteback
  split
  · rfl
  · next w h =>
    have := writeback_outside h a ha
    apply Environment.read_writeBytes_outside
    simp; omega

/-- Emptying the writeback buffer keeps the canonical form. -/
theorem wf_memAfterWriteback {s : State} (h : s.mem.wf = true) : s.memAfterWriteback.wf = true := by
  unfold State.memAfterWriteback
  split
  · exact h
  · exact Environment.wf_writeLine _ h _ _

/-- Emptying buffered stores keeps the canonical form. -/
theorem wf_commitStores (v : Environment) (es : List NcStore) {m : Memory} (h : m.wf = true) :
    (v.commitStores m es).wf = true := by
  induction es generalizing m with
  | nil => exact h
  | cons e es ih => exact ih (v.wf_writeBytes h _ _)

/-- Emptying buffered stores changes only their own bytes. -/
theorem read_commitStores_outside (v : Environment) (a : Nat) (es : List NcStore) {m : Memory}
    (h : a ∉ es.flatMap NcStore.physicalBytes) : (v.commitStores m es).read a = m.read a := by
  induction es generalizing m with
  | nil => rfl
  | cons e es ih =>
    simp only [List.flatMap_cons, List.mem_append, not_or] at h
    rw [Environment.commitStores, ih h.2, Environment.commitStore]
    apply Environment.read_writeBytes_outside
    by_contra hc
    apply h.1
    simp only [NcStore.physicalBytes, List.mem_map, List.mem_range]
    exact ⟨a - physical e.va, by omega, by omega⟩

/-- Emptying two lists of stores, one after the other. -/
theorem commitStores_append (v : Environment) (a b : List NcStore) (m : Memory) :
    v.commitStores m (a ++ b) = v.commitStores (v.commitStores m a) b := by
  induction a generalizing m with
  | nil => rfl
  | cons x xs ih => exact ih _

/-- A byte that has just reached RAM reads as it was written. -/
theorem read_writeBytes_at (v : Environment) (m : Memory) (a : Nat) (bs : List Byte) (hk : a + bs.length ≤ 2 ^ 30) (k : Nat)
    (h : k < bs.length) (hw : (v.region (a + k)).kind.writable = true) : (v.writeBytes m a bs).read (a + k) = bs[k] := by
  rw [Environment.read_writeBytes _ _ _ _ hk]
  simp [h, hw]

/-- The bytes of a store of one word of a non-cached segment lie in physical memory. -/
theorem physicalBytes_le {e : NcStore} (h : e.wf = true) : physical e.va + e.bytes.length ≤ 2^30 := by
  simp only [NcStore.wf, Bool.and_eq_true, decide_eq_true_eq] at h
  have h3 := h.2
  rw [toNat_byteInWord] at h3
  have := e.va.isLt
  rw [physical_eq]
  split_ifs <;> omega

/-- A line address has offset 0. -/
theorem lineOffset_lineAddress (t : BitVec 19) (i : BitVec 7) : lineOffset (lineAddress t i) = 0 := by
  apply BitVec.eq_of_toNat_eq
  rw [toNat_lineOffset, toNat_lineAddress]; simp; omega

/-- What holds after an access: nothing but the data side has changed, memory only where a bus write was in flight, and the
data side keeps its part of the invariant. -/
structure DataFrame (s u : State) : Prop where
  od : OnlyDataSide s u
  fl : ∀ a, a ∉ s.inFlight → u.mem.read a = s.mem.read a
  inv : s.Inv → u.mem.wf = true ∧ u.stores.length ≤ 16 ∧ u.stores.all NcStore.wf = true ∧
    ∀ w, u.writeback = some w → lineOffset w.va = 0

theorem DataFrame.refl (s : State) : DataFrame s s := ⟨rfl, fun _ _ => rfl, fun i => ⟨i.memory, i.room, i.stores, i.line⟩⟩

/-- Replacing a data cache set. -/
theorem DataFrame.setDset {s u : State} (va c) (h : DataFrame s u) : DataFrame s (u.setDset va c) :=
  ⟨h.od.trans rfl, h.fl, h.inv⟩

/-- Settling a line adds nothing to what is in flight. -/
theorem settleLine_inFlight {s : State} {va a} (h : a ∉ s.inFlight) : a ∉ (s.settleLine va).inFlight := by
  simp only [State.inFlight, State.settleLine, List.mem_append, not_or] at *
  refine ⟨?_, h.2⟩
  split
  · simp
  · rename_i w hw
    split at hw
    · cases hw
    · have := h.1; rw [hw] at this; exact this

/-- Replacing a dirty victim. -/
theorem DataFrame.evict {s u : State} (va w) (h : DataFrame s u) (hin : ∀ a, a ∉ s.inFlight → a ∉ u.inFlight) : DataFrame s (u.evict va w) := by
  refine ⟨h.od.trans rfl, ?_, ?_⟩
  · intro a ha
    show (if _ then _ else _ : Memory).read a = _
    split
    · rw [read_memAfterWriteback a (hin a ha), h.fl a ha]
    · exact h.fl a ha
  · intro i
    obtain ⟨h1,h2,h3,h4⟩ := h.inv i
    refine ⟨?_, h2, h3, ?_⟩
    · show (if _ then _ else _ : Memory).wf = true
      split
      · exact wf_memAfterWriteback h1
      · exact h1
    · intro w' hw
      change (if _ then _ else _) = some w' at hw
      split at hw
      · cases hw; exact lineOffset_lineAddress _ _
      · exact h4 _ hw

/-- What a data cache fill can do. -/
theorem dcacheFill_frame {s : State} {k v va w t} (h : dcacheFill k v va s = .ok w t) : DataFrame s t := by
  unfold dcacheFill at h
  split at h
  · cases h
  · cases h
    apply DataFrame.setDset; apply DataFrame.setDset
    have hs : DataFrame s (s.settleLine va) := by
      refine ⟨rfl, ?_, ?_⟩
      · intro a ha
        show (if _ then _ else _ : Memory).read a = _
        split
        · exact read_memAfterWriteback a ha
        · rfl
      · intro i
        refine ⟨?_, i.room, i.stores, ?_⟩
        · show (if _ then _ else _ : Memory).wf = true
          split
          · exact wf_memAfterWriteback i.memory
          · exact i.memory
        · intro w' hw
          change (if _ then _ else _) = some w' at hw
          split at hw
          · cases hw
          · exact i.line _ hw
    exact DataFrame.evict _ _ hs (fun a ha => settleLine_inFlight ha)

/-- What a data cache access can do. -/
theorem dcacheAccess_dataFrame {s : State} {k va w t} (h : dcacheAccess k va s = .ok w t) : DataFrame s t := by
  unfold dcacheAccess at h
  split at h
  · cases h; exact DataFrame.setDset _ _ (DataFrame.refl s)
  · exact dcacheFill_frame h

/-- What the load of some bytes can do. -/
theorem loadBytes_frame {s : State} {va n bs t} (h : loadBytes va n s = .ok bs t) : DataFrame s t := by
  unfold loadBytes at h
  split at h
  · obtain ⟨w,u,hu,he⟩ := Access.bind_ok h
    cases he; exact dcacheAccess_dataFrame hu
  · split at h <;> cases h
    exact DataFrame.refl s

/-- What the store of one to four bytes of one word can do. -/
theorem storeBytes_frame {s : State} {va bs x t} (hb : 0 < bs.length ∧ va.toNat % 4 + bs.length ≤ 4) (h : storeBytes va bs s = .ok x t) : DataFrame s t := by
  unfold storeBytes at h
  split at h
  · obtain ⟨w,u,hu,he⟩ := Access.bind_ok h
    cases he; exact DataFrame.setDset _ _ (dcacheAccess_dataFrame hu)
  · next hc =>
    cases h
    refine ⟨rfl, ?_, ?_⟩
    · intro a ha
      apply read_commitStores_outside
      intro hm
      apply ha
      simp only [State.inFlight, List.mem_append]
      right
      rw [List.mem_flatMap] at hm ⊢
      obtain ⟨e, he, h⟩ := hm
      exact ⟨e, List.mem_of_mem_take he, h⟩
    · intro i
      have := i.room
      refine ⟨wf_commitStores _ _ i.memory, ?_, ?_, i.line⟩
      · simp [State.pushStore, State.overflow]; omega
      · simp only [State.pushStore, List.all_append, Bool.and_eq_true]
        refine ⟨?_, ?_⟩
        · rw [List.all_eq_true]; intro e he
          exact List.all_eq_true.1 i.stores e (List.mem_of_mem_drop he)
        · simp [NcStore.wf, hc, toNat_byteInWord]; omega

/-- What MemRead can do. -/
theorem memRead_frame {s : State} {va n v t} (h : memRead va n s = .ok v t) : DataFrame s t := by
  obtain ⟨_,u,hu,he⟩ := Access.bind_ok h
  have := checkAddress_next s hu; subst this
  obtain ⟨_,w,hw,he⟩ := Access.bind_ok he
  cases he; exact loadBytes_frame hw

/-- What the access of LWL and LWR can do. -/
theorem memReadPart_frame {s : State} {va st n v t} (h : memReadPart va st n s = .ok v t) : DataFrame s t := by
  obtain ⟨_,u,hu,he⟩ := Access.bind_ok h
  have := checkAddress_next s hu; subst this
  obtain ⟨_,w,hw,he⟩ := Access.bind_ok he
  cases he; exact loadBytes_frame hw

/-- An access that passes the checks is aligned. -/
theorem checkAddress_aligned {s : State} {k n va t v} (h : checkAddress k n va s = .ok v t) : aligned n va = true := by
  unfold checkAddress at h; split at h
  · assumption
  · cases h

/-- What MemWrite can do. -/
theorem memWrite_frame {s : State} {va n v x t} (hn : n = 1 ∨ n = 2 ∨ n = 4) (h : memWrite va n v s = .ok x t) : DataFrame s t := by
  obtain ⟨_,u,hu,he⟩ := Access.bind_ok h
  have ha := checkAddress_aligned hu
  have := checkAddress_next s hu; subst this
  refine storeBytes_frame ?_ he
  rw [length_layOut]
  rcases hn with rfl | rfl | rfl
  · omega
  · have : (va.extractLsb' 0 1).toNat = 0 := by simpa [aligned] using congrArg BitVec.toNat (beq_iff_eq.1 (show (va.extractLsb' 0 1 == 0) = true from ha))
    rw [BitVec.extractLsb'_toNat] at this; simp at this; omega
  · have : (va.extractLsb' 0 2).toNat = 0 := by simpa [aligned] using congrArg BitVec.toNat (beq_iff_eq.1 (show (va.extractLsb' 0 2 == 0) = true from ha))
    rw [BitVec.extractLsb'_toNat] at this; simp at this; omega

/-- What the access of SWL and SWR can do. -/
theorem memWritePart_frame {s : State} {va st n v x t} (hn : 0 < n ∧ st.toNat % 4 + n ≤ 4) (h : memWritePart va st n v s = .ok x t) : DataFrame s t := by
  obtain ⟨_,u,hu,he⟩ := Access.bind_ok h
  have := checkAddress_next s hu; subst this
  refine storeBytes_frame ?_ he
  rw [length_layOut]; exact hn

/-- The parts of LWL, LWR, SWL and SWR are one to four bytes of one word. -/
theorem part_in_word (b : Bool) (va : Word) : (0 < (leftPart b va).count ∧ (leftPart b va).start.toNat % 4 + (leftPart b va).count ≤ 4) ∧
   (0 < (rightPart b va).count ∧ (rightPart b va).start.toNat % 4 + (rightPart b va).count ≤ 4) := by
  have := toNat_byteInWord va
  have h2 := toNat_wordAddress va
  cases b <;> simp [leftPart, rightPart, partUpTo, partFrom, this, h2] <;> omega

/-- With an empty writeback buffer, replacing a victim leaves memory alone. -/
theorem evict_mem_of_empty {s : State} (h : s.writeback = none) (va w) : (s.evict va w).mem = s.mem := by
  show (if _ then _ else _) = _
  split
  · simp [State.memAfterWriteback, h]
  · rfl

theorem settleLine_of_empty {s : State} (h : s.writeback = none) (va) : s.settleLine va = s := by
  have : s.writebackHolds va = false := by simp [State.writebackHolds, h]
  simp only [State.settleLine, this]; rfl

theorem refillMemory_of_empty {s : State} (h : s.writeback = none) (a) : s.refillMemory a = s.mem := by
  rw [State.refillMemory, settleLine_of_empty h, evict_mem_of_empty h]

/-- A byte of a line just read from memory. -/
theorem lineByte_readLine (s : State) (va a : Word) (h : SameLine a va) :
    lineByte (s.env.readLine s.mem (physicalLine va)) a = s.env.readByte s.mem (physical a) := by
  rw [physical_offset a, h.physicalLine_eq]
  simp only [lineByte, Environment.getElem_readLine]

/-- The set and the tag determine the line. -/
theorem sameLine_of_set_tag {va a : Word} (hs : setIndex a = setIndex va) (ht : lineTag a = lineTag va) : SameLine a va := by
  have h1 := congrArg BitVec.toNat hs
  have h2 := congrArg BitVec.toNat ht
  rw [toNat_setIndex, toNat_setIndex] at h1
  rw [toNat_lineTag, toNat_lineTag] at h2
  constructor; omega

/-- Filling one way leaves a hit in the other. -/
theorem find_setWay_other {c : CacheSet Bool} {x : Way Bool} {w : WaySel} {tag : BitVec 19} (hx : (x.valid && x.tag == tag) = false)
   (hf : c.find tag = some w.other) : (c.setWay w x).find tag = some w.other := by
  cases w
  · simp [CacheSet.find, CacheSet.setWay, WaySel.other] at *
    split at hf
    · cases hf
    · rw [if_neg (by rintro ⟨p,q⟩; exact hx p q)]; exact hf
  · simp_all [CacheSet.find, CacheSet.setWay, WaySel.other]

theorem lineAddress_injective {t : BitVec 19} {i : BitVec 7} {a : Word} (h : lineAddress t i = lineAddress (lineTag a) (setIndex a)) : t = lineTag a ∧ i = setIndex a := by
  have h' := congrArg BitVec.toNat h
  rw [toNat_lineAddress, toNat_lineAddress] at h'
  have := t.isLt; have := i.isLt; have := (setIndex a).isLt; have := (lineTag a).isLt
  constructor <;> apply BitVec.eq_of_toNat_eq <;> omega

/-- A data cache access changes no byte that a load could read, in a settled state, but where aliases are dirty. -/
theorem dcacheAccess_byteAt {s t : State} {k va w} {a : Word} (hs : s.Settled) (ha : s.Unaliased a) (h : dcacheAccess k va s = .ok w t) : t.byteAt a = s.byteAt a := by
  have hwb := hs.empty
  rcases dcacheAccess_cases s k va with ⟨w', hf, he⟩ | ⟨hf, -, he⟩ | ⟨-, -, he⟩
  · rw [he] at h; cases h
    have hm : (s.touchD va w).refillMemory a = s.refillMemory a := by
      rw [refillMemory_of_empty hwb, refillMemory_of_empty (s := s.touchD va w) hwb]; rfl
    unfold State.byteAt
    split
    · rw [hm]
      have : (s.touchD va w).dset a = if setIndex a = setIndex va then (s.dset va).touch w else s.dset a := by
        rw [State.touchD, State.dset_setDset]
      rw [this]
      by_cases hi : setIndex a = setIndex va
      · have e : s.dset a = s.dset va := by simp only [State.dset, hi]
        rw [if_pos hi, e]; simp
      · rw [if_neg hi, touchD_env]
    · rfl
  · rw [he] at h; cases h
    rw [settleLine_of_empty hwb]
    generalize hw : s.victimD va = w
    have hmem : (s.evict va w).mem = s.mem := evict_mem_of_empty hwb _ _
    have hd : ∀ x, (((s.evict va w).fillDset va w).touchD va w).dset x = if setIndex x = setIndex va then ((s.dset va).setWay w { valid := true, tag := lineTag va, data := s.env.readLine s.mem (physicalLine va), dirty := false }).touch w else s.dset x := by
      intro x
      rw [State.touchD, State.dset_setDset]
      split
      · rw [State.fillDset, State.dset_setDset_same, hmem]; rfl
      · next hx => rw [State.fillDset, State.dset_setDset, if_neg hx]; rfl
    have hwbt : (((s.evict va w).fillDset va w).touchD va w).writeback = (s.evict va w).writeback := rfl
    have hmt : (((s.evict va w).fillDset va w).touchD va w).mem = s.mem := hmem
    have hst : (((s.evict va w).fillDset va w).touchD va w).stores = s.stores := rfl
    have het : (((s.evict va w).fillDset va w).touchD va w).env = s.env := rfl
    generalize (((s.evict va w).fillDset va w).touchD va w) = t at *
    by_cases hc : cachedAddress a = true
    · -- cached
      -- refill memory in t for an address whose line is not the evicted one
      have hrm : (∀ y, (s.evict va w).writeback = some y → y.va ≠ lineAddress (lineTag a) (setIndex a)) → t.env.readByte (t.refillMemory a) (physical a) = s.env.readByte s.mem (physical a) := by
        intro hy
        rw [het]
        apply Environment.readByte_congr
        have hh : t.writebackHolds a = false := by
          unfold State.writebackHolds
          split
          · rfl
          · rename_i y hyy; rw [hwbt] at hyy; simpa using hy y hyy
        have hse : t.settleLine a = t := by simp only [State.settleLine, hh]; rfl
        rw [State.refillMemory, hse]
        change (if t.dirtyVictim a (t.victimD a) then t.memAfterWriteback else t.mem : Memory).read _ = _
        split
        · unfold State.memAfterWriteback
          split
          · rw [hmt]
          · rename_i y hyy
            rw [hmt]
            rw [hwbt] at hyy
            have hdv : s.dirtyVictim va w = true := by
              by_contra hn
              change (if s.dirtyVictim va w then _ else s.writeback) = _ at hyy
              rw [if_neg hn, hwb] at hyy; cases hyy
            change (if s.dirtyVictim va w then _ else s.writeback) = _ at hyy
            rw [if_pos hdv] at hyy
            have hyv : y.va = lineAddress ((s.dset va).way w).tag (setIndex va) := by cases hyy; rfl
            simp only [State.dirtyVictim, Bool.and_eq_true] at hdv
            apply Environment.read_writeBytes_outside
            by_contra hcc
            simp at hcc
            have pl : physical y.va = physicalLine a := by
              have e1 : physical y.va % 64 = 0 := by
                have := physical_eq y.va
                have h0 := toNat_lineAddress ((s.dset va).way w).tag (setIndex va)
                rw [← hyv] at h0
                rw [this]; split_ifs <;> omega
              have := physicalLine_eq a
              omega
            have := ha va w hdv.1 hdv.2 (by rw [← hyv]; exact pl)
            exact hy y (by change (if s.dirtyVictim va w then _ else s.writeback) = _; rw [if_pos (by simp [State.dirtyVictim, hdv])]; exact hyy) (by rw [hyv]; exact this)
        · rw [hmt]
      unfold State.byteAt
      rw [if_pos hc, if_pos hc, hd a]
      by_cases hi : setIndex a = setIndex va
      · rw [if_pos hi]
        have e : s.dset a = s.dset va := by simp only [State.dset, hi]
        rw [e]
        simp only [CacheSet.find_touch, CacheSet.way_touch]
        by_cases ht : lineTag a = lineTag va
        · have sl := sameLine_of_set_tag hi ht
          rw [ht, hf, CacheSet.find_fill _ hf _ _ rfl rfl]
          simp only [CacheSet.way_setWay, if_true]
          rw [lineByte_readLine s va a sl, refillMemory_of_empty hwb]
        · -- another tag in the same set
          cases hfa : (s.dset va).find (lineTag a) with
          | none =>
            have hn : ((s.dset va).setWay w { valid := true, tag := lineTag va, data := s.env.readLine s.mem (physicalLine va), dirty := false }).find (lineTag a) = none := by
              have n1 := CacheSet.find_none _ hfa
              have na := n1 .a; have nb := n1 .b
              have ht' : ¬ lineTag va = lineTag a := fun h => ht h.symm
              cases w <;> simp_all [CacheSet.find, CacheSet.setWay, CacheSet.way]
            rw [hn]
            simp only
            rw [refillMemory_of_empty hwb]
            apply hrm
            intro y hy hya
            change (if s.dirtyVictim va w then _ else s.writeback) = _ at hy
            split at hy
            · rename_i hdv
              cases hy
              have := (lineAddress_injective hya).1
              simp only [State.dirtyVictim, Bool.and_eq_true] at hdv
              have := CacheSet.find_none _ hfa w
              simp_all
            · rw [hwb] at hy; cases hy
          | some v =>
            by_cases hv : v = w
            · subst hv
              -- evicted line
              have hva := CacheSet.find_some _ hfa
              have hn : ((s.dset va).setWay v { valid := true, tag := lineTag va, data := s.env.readLine s.mem (physicalLine va), dirty := false }).find (lineTag a) = none := by
                have sg := hs.single va
                have ht' : ¬ lineTag va = lineTag a := fun h => ht h.symm
                cases v <;> (simp_all [CacheSet.find, CacheSet.setWay, CacheSet.way]; try (intro h1 h2; exact sg h1 h2.symm))
              rw [hn]
              simp only
              have hla : lineAddress ((s.dset va).way v).tag (setIndex va) = lineAddress (lineTag a) (setIndex a) := by rw [hva.2, hi]
              by_cases hdy : ((s.dset va).way v).dirty = true
              · have hwv : (s.evict va v).writeback = some { va := lineAddress (lineTag a) (setIndex a), data := ((s.dset va).way v).data } := by
                  change (if s.dirtyVictim va v then _ else s.writeback) = _
                  rw [if_pos (by simp [State.dirtyVictim, hva.1, hdy]), hla]
                have hh : t.writebackHolds a = true := by simp [State.writebackHolds, hwbt, hwv]
                have hsl : (t.settleLine a).mem = s.env.writeLine s.mem (physicalLine a) ((s.dset va).way v).data ∧ (t.settleLine a).writeback = none := by
                  simp only [State.settleLine, hh, if_true, State.memAfterWriteback, hwbt, hwv, hmt, het]
                  exact ⟨rfl, trivial⟩
                have po := physical_offset a
                have lt := (lineOffset a).isLt
                have hram := hs.backed va v hva.1 hdy (lineOffset a).toNat lt
                rw [hla] at hram
                change s.writableAt (physicalLine a + _) = true at hram
                rw [← po] at hram
                rw [het, State.refillMemory, evict_mem_of_empty hsl.2, hsl.1,
                  Environment.readByte_of_holds _ _ (RegionKind.holds_of_writable hram),
                  Environment.read_writeLine _ _ _ _ (physicalLine_lt a), dif_pos ⟨by omega, hram⟩]
                simp only [lineByte]
                congr 1; omega
              · have hcur := hs.current va v hva.1 (by simpa using hdy)
                rw [hrm]
                · rw [hcur, hla]
                  have := lineByte_readLine s a a ⟨rfl⟩
                  rw [physicalLine] at this
                  exact this.symm
                · intro y hy
                  change (if s.dirtyVictim va v then _ else s.writeback) = _ at hy
                  rw [if_neg (by simp [State.dirtyVictim, hdy]), hwb] at hy; cases hy
            · have : v = w.other := by cases v <;> cases w <;> simp_all [WaySel.other]
              subst this
              rw [find_setWay_other (by simp; exact fun h => ht h.symm) hfa]
              simp only [CacheSet.way_setWay]
              have : (w.other = w) = False := by cases w <;> simp [WaySel.other]
              simp [this]
      · rw [if_neg hi]
        cases hfa : (s.dset a).find (lineTag a) with
        | some v => rfl
        | none =>
          simp only
          rw [refillMemory_of_empty hwb]
          apply hrm
          intro y hy hya
          change (if s.dirtyVictim va w then _ else s.writeback) = _ at hy
          split at hy
          · cases hy
            exact hi (lineAddress_injective hya).2.symm
          · rw [hwb] at hy; cases hy
    · unfold State.byteAt
      rw [if_neg hc, if_neg hc]
      simp only [State.nonCachedByte, State.physByte, hst, hmt, het]
  · rw [he] at h; cases h

/-- `Unaliased` says the same of every address of a line. -/
theorem State.Unaliased.sameLine {s : State} {a b : Word} (h : SameLine b a) (g : s.Unaliased a) : s.Unaliased b := by
  intro va w hv hd he
  rw [h.setIndex_eq, h.lineTag_eq]
  exact g va w hv hd (by rw [← h.physicalLine_eq]; exact he)

/-- A load changes no byte that a later load could read: of its own line never, of another line not if it is non-cached, nor
in a settled state where no alias is dirty. -/
theorem loadBytes_byteAt {s t : State} {va : Word} {n : Nat} {bs : List Byte} (h : loadBytes va n s = .ok bs t) {a : Word}
    (ha : SameLine a va ∨ cachedAddress va = false ∨ s.Settled ∧ s.Unaliased a) : t.byteAt a = s.byteAt a := by
  unfold loadBytes at h
  split at h
  · next hc =>
    obtain ⟨w, u, hu, he⟩ := Access.bind_ok h
    cases he
    rcases ha with ha | ha | ⟨hs, ha⟩
    · rw [← dcacheAccess_byte s hu hc ha]
      unfold State.byteAt
      rw [if_pos (by rw [ha.cachedAddress_eq]; exact hc), ha.lineTag_eq, State.dset_congr _ ha, dcacheAccess_find s hu]
    · rw [hc] at ha; cases ha
    · exact dcacheAccess_byteAt hs ha hu
  · split at h <;> cases h
    rfl

end Sys2Proof.Machine
end

