-- ==== Sys2Proof/Laws/Decode.lean ====
section
/-! SUPPORT. The fields of the words that the encoder's layouts make, and words as bytes. -/

namespace Sys2Proof

section Layouts

variable (op : BitVec 6) (rs rt rd sa : BitVec 5) (func : BitVec 6) (imm : Imm16) (target : BitVec 26) (code : BitVec 20)
  (cofun : BitVec 25)

/-- The field at the bottom of a concatenation. -/
theorem extract_low {n m : Nat} (x : BitVec n) (y : BitVec m) : (x ++ y).extractLsb' 0 m = y := by
  ext i hi
  simp [BitVec.getLsbD_append, hi]

/-- A field above the bottom of a concatenation. -/
theorem extract_high {n m k : Nat} (x : BitVec n) (y : BitVec m) (j : Nat) :
    (x ++ y).extractLsb' (m + j) k = x.extractLsb' j k := by
  ext i hi
  simp only [BitVec.getElem_extractLsb', BitVec.getLsbD_append]
  rw [if_neg (by omega)]
  congr 1
  omega

theorem extract_all {n : Nat} (x : BitVec n) : x.extractLsb' 0 n = x := by
  ext i hi
  simp

@[simp] theorem fOp_encI : fOp (encI op rs rt imm) = op := by
  refine (extract_high _ _ 10).trans ((extract_high _ _ 5).trans ((extract_high _ _ 0).trans (extract_all _)))

@[simp] theorem fRs_encI : fRs (encI op rs rt imm) = rs := by
  refine (extract_high _ _ 5).trans ((extract_high _ _ 0).trans (extract_low _ _))

@[simp] theorem fRt_encI : fRt (encI op rs rt imm) = rt := (extract_high _ _ 0).trans (extract_low _ _)

@[simp] theorem fImm_encI : fImm (encI op rs rt imm) = imm := extract_low _ _

@[simp] theorem fFunc_encR : fFunc (encR op rs rt rd sa func) = func := extract_low _ _

@[simp] theorem fSa_encR : fSa (encR op rs rt rd sa func) = sa := (extract_high _ _ 0).trans (extract_low _ _)

@[simp] theorem fRd_encR : fRd (encR op rs rt rd sa func) = rd :=
  (extract_high _ _ 5).trans ((extract_high _ _ 0).trans (extract_low _ _))

@[simp] theorem fRt_encR : fRt (encR op rs rt rd sa func) = rt :=
  (extract_high _ _ 10).trans ((extract_high _ _ 5).trans ((extract_high _ _ 0).trans (extract_low _ _)))

@[simp] theorem fRs_encR : fRs (encR op rs rt rd sa func) = rs :=
  (extract_high _ _ 15).trans
    ((extract_high _ _ 10).trans ((extract_high _ _ 5).trans ((extract_high _ _ 0).trans (extract_low _ _))))

@[simp] theorem fOp_encR : fOp (encR op rs rt rd sa func) = op :=
  (extract_high _ _ 20).trans
    ((extract_high _ _ 15).trans
      ((extract_high _ _ 10).trans ((extract_high _ _ 5).trans ((extract_high _ _ 0).trans (extract_all _)))))

@[simp] theorem fOp_encJ : fOp (encJ op target) = op := (extract_high _ _ 0).trans (extract_all _)

@[simp] theorem fTarget_encJ : fTarget (encJ op target) = target := extract_low _ _

@[simp] theorem fFunc_encCode : fFunc (encCode code func) = func := extract_low _ _

@[simp] theorem fCode_encCode : fCode (encCode code func) = code := (extract_high _ _ 0).trans (extract_low _ _)

@[simp] theorem fOp_encCode : fOp (encCode code func) = 0 :=
  (extract_high _ _ 20).trans ((extract_high _ _ 0).trans (extract_all _))

@[simp] theorem fOp_encCop : fOp (encCop op cofun) = op :=
  (extract_high _ _ 1).trans ((extract_high _ _ 0).trans (extract_all _))

@[simp] theorem fCofun_encCop : fCofun (encCop op cofun) = cofun := extract_low _ _

theorem bit25_fRs (w : Word) : w[25] = (fRs w)[4] := by simp [fRs]

theorem bit25_field (w : Word) : w[25] = (w.extractLsb' 25 1)[0] := by simp

/-- Bit 25 tells a coprocessor operation from the words of the other layouts (GK10). -/
@[simp] theorem bit25_encCop : (encCop op cofun)[25] = true := by
  rw [bit25_field, show (encCop op cofun).extractLsb' 25 1 = 1#1 from (extract_high _ _ 0).trans (extract_low _ _)]
  rfl

@[simp] theorem bit25_encI : (encI op rs rt imm)[25] = rs[4] := by rw [bit25_fRs, fRs_encI]

@[simp] theorem bit25_encR : (encR op rs rt rd sa func)[25] = rs[4] := by rw [bit25_fRs, fRs_encR]

/-- Bits 10:0 of an R-type word are its `sa` and `func`. -/
@[simp] theorem low11_encR : (encR op rs rt rd 0#5 0#6).extractLsb' 0 11 = 0#11 := by
  ext i hi
  simp only [BitVec.getElem_extractLsb', encR, BitVec.getLsbD_append]
  by_cases h : i < 6
  · simp [h]
  · have h5 : i - 6 < 5 := by omega
    simp [h, h5]

end Layouts

/-! ## Bytes -/

/-- The four bytes of a word, put together again, are the word. -/
theorem leWord_leBytes (w : Word) : leWord (leBytes 4 w) = w := by
  simp only [leBytes, leWord]
  ext i hi
  simp only [BitVec.getElem_or, BitVec.getElem_shiftLeft, BitVec.getElem_setWidth, BitVec.getLsbD_setWidth,
    BitVec.getLsbD_ushiftRight]
  rw [← BitVec.getLsbD_eq_getElem hi]
  rcases Nat.lt_or_ge i 8 with h | h
  · simp [h]
  · have b : decide (i < 8) = false := by simpa using h
    rcases Nat.lt_or_ge i 16 with h2 | h2
    · have a : i - 8 < 8 := by omega
      have e : 8 + (i - 8) = i := by omega
      simp [a, b, e, hi]
    · have c : decide (i - 8 < 8) = false := by simp; omega
      rcases Nat.lt_or_ge i 24 with h3 | h3
      · have a : i - 8 - 8 < 8 := by omega
        have e : 8 + (8 + (i - 8 - 8)) = i := by omega
        simp [a, b, c, e, hi]
      · have a : i - 8 - 8 - 8 < 8 := by omega
        have d : decide (i - 8 - 8 < 8) = false := by simp; omega
        have e : 8 + (8 + (8 + (i - 8 - 8 - 8))) = i := by omega
        simp [a, b, c, d, e, hi]

end Sys2Proof
end

