-- ==== Sys2Proof/Laws/PerInstr.lean ====
section
/-! SUPPORT. One statement about every instruction: the word that the encoder writes lies in the instruction's row of
spec/opcode_table.json (R151), that is, it has the row's `match` under the row's `mask`. -/

namespace Sys2Proof.Laws

/-- The `mask` and the `match` of the instruction's row of spec/opcode_table.json. -/
def tableRow : Instr → Word × Word
  | .lb .. => (0xFC000000#32, 0x80000000#32)
  | .lbu .. => (0xFC000000#32, 0x90000000#32)
  | .lh .. => (0xFC000000#32, 0x84000000#32)
  | .lhu .. => (0xFC000000#32, 0x94000000#32)
  | .lwl .. => (0xFC000000#32, 0x88000000#32)
  | .lwr .. => (0xFC000000#32, 0x98000000#32)
  | .ll .. => (0xFC000000#32, 0xC0000000#32)
  | .lw .. => (0xFC000000#32, 0x8C000000#32)
  | .sb .. => (0xFC000000#32, 0xA0000000#32)
  | .sh .. => (0xFC000000#32, 0xA4000000#32)
  | .swl .. => (0xFC000000#32, 0xA8000000#32)
  | .swr .. => (0xFC000000#32, 0xB8000000#32)
  | .sc .. => (0xFC000000#32, 0xE0000000#32)
  | .sw .. => (0xFC000000#32, 0xAC000000#32)
  | .addi .. => (0xFC000000#32, 0x20000000#32)
  | .addiu .. => (0xFC000000#32, 0x24000000#32)
  | .slti .. => (0xFC000000#32, 0x28000000#32)
  | .sltiu .. => (0xFC000000#32, 0x2C000000#32)
  | .andi .. => (0xFC000000#32, 0x30000000#32)
  | .ori .. => (0xFC000000#32, 0x34000000#32)
  | .xori .. => (0xFC000000#32, 0x38000000#32)
  | .lui .. => (0xFFE00000#32, 0x3C000000#32)
  | .add .. => (0xFC0007FF#32, 0x00000020#32)
  | .addu .. => (0xFC0007FF#32, 0x00000021#32)
  | .sub .. => (0xFC0007FF#32, 0x00000022#32)
  | .subu .. => (0xFC0007FF#32, 0x00000023#32)
  | .slt .. => (0xFC0007FF#32, 0x0000002A#32)
  | .sltu .. => (0xFC0007FF#32, 0x0000002B#32)
  | .and .. => (0xFC0007FF#32, 0x00000024#32)
  | .or .. => (0xFC0007FF#32, 0x00000025#32)
  | .xor .. => (0xFC0007FF#32, 0x00000026#32)
  | .nor .. => (0xFC0007FF#32, 0x00000027#32)
  | .sll .. => (0xFFE0003F#32, 0x00000000#32)
  | .srl .. => (0xFFE0003F#32, 0x00000002#32)
  | .sra .. => (0xFFE0003F#32, 0x00000003#32)
  | .sllv .. => (0xFC0007FF#32, 0x00000004#32)
  | .srlv .. => (0xFC0007FF#32, 0x00000006#32)
  | .srav .. => (0xFC0007FF#32, 0x00000007#32)
  | .mult .. => (0xFC00FFFF#32, 0x00000018#32)
  | .multu .. => (0xFC00FFFF#32, 0x00000019#32)
  | .div .. => (0xFC00FFFF#32, 0x0000001A#32)
  | .divu .. => (0xFC00FFFF#32, 0x0000001B#32)
  | .mfhi .. => (0xFFFF07FF#32, 0x00000010#32)
  | .mflo .. => (0xFFFF07FF#32, 0x00000012#32)
  | .mthi .. => (0xFC1FFFFF#32, 0x00000011#32)
  | .mtlo .. => (0xFC1FFFFF#32, 0x00000013#32)
  | .madd .. => (0xFC00FFFF#32, 0x0000001C#32)
  | .maddu .. => (0xFC00FFFF#32, 0x0000001D#32)
  | .msub .. => (0xFC00FFFF#32, 0x0000002E#32)
  | .msubu .. => (0xFC00FFFF#32, 0x0000002F#32)
  | .max .. => (0xFC0007FF#32, 0x0000002C#32)
  | .min .. => (0xFC0007FF#32, 0x0000002D#32)
  | .movn .. => (0xFC0007FF#32, 0x0000000B#32)
  | .movz .. => (0xFC0007FF#32, 0x0000000A#32)
  | .ext .. => (0xFC00003F#32, 0x7C000000#32)
  | .ins .. => (0xFC00003F#32, 0x7C000004#32)
  | .seb .. => (0xFFE007FF#32, 0x7C000420#32)
  | .seh .. => (0xFFE007FF#32, 0x7C000620#32)
  | .rotr .. => (0xFFE0003F#32, 0x00200002#32)
  | .rotrv .. => (0xFC0007FF#32, 0x00000046#32)
  | .wsbh .. => (0xFFE007FF#32, 0x7C0000A0#32)
  | .wsbw .. => (0xFFE007FF#32, 0x7C0000E0#32)
  | .bitrev .. => (0xFFE007FF#32, 0x7C000520#32)
  | .clz .. => (0xFC1F07FF#32, 0x00000016#32)
  | .clo .. => (0xFC1F07FF#32, 0x00000017#32)
  | .j .. => (0xFC000000#32, 0x08000000#32)
  | .jal .. => (0xFC000000#32, 0x0C000000#32)
  | .jr .. => (0xFC1FFFFF#32, 0x00000008#32)
  | .jalr .. => (0xFC1F07FF#32, 0x00000009#32)
  | .beq .. => (0xFC000000#32, 0x10000000#32)
  | .bne .. => (0xFC000000#32, 0x14000000#32)
  | .blez .. => (0xFC1F0000#32, 0x18000000#32)
  | .bgtz .. => (0xFC1F0000#32, 0x1C000000#32)
  | .bltz .. => (0xFC1F0000#32, 0x04000000#32)
  | .bgez .. => (0xFC1F0000#32, 0x04010000#32)
  | .bltzal .. => (0xFC1F0000#32, 0x04100000#32)
  | .bgezal .. => (0xFC1F0000#32, 0x04110000#32)
  | .bltzl .. => (0xFC1F0000#32, 0x04020000#32)
  | .bgezl .. => (0xFC1F0000#32, 0x04030000#32)
  | .bltzall .. => (0xFC1F0000#32, 0x04120000#32)
  | .bgezall .. => (0xFC1F0000#32, 0x04130000#32)
  | .beql .. => (0xFC000000#32, 0x50000000#32)
  | .bnel .. => (0xFC000000#32, 0x54000000#32)
  | .blezl .. => (0xFC1F0000#32, 0x58000000#32)
  | .bgtzl .. => (0xFC1F0000#32, 0x5C000000#32)
  | .syscall .. => (0xFC00003F#32, 0x0000000C#32)
  | .brk .. => (0xFC00003F#32, 0x0000000D#32)
  | .sync => (0xFFFFFFFF#32, 0x0000000F#32)
  | .lwc1 .. => (0xFC000000#32, 0xC4000000#32)
  | .swc1 .. => (0xFC000000#32, 0xE4000000#32)
  | .mtc1 .. => (0xFFE007FF#32, 0x44800000#32)
  | .mfc1 .. => (0xFFE007FF#32, 0x44000000#32)
  | .ctc1 .. => (0xFFE007FF#32, 0x44C00000#32)
  | .cfc1 .. => (0xFFE007FF#32, 0x44400000#32)
  | .cop1 .. => (0xFE000000#32, 0x46000000#32)
  | .bc1f .. => (0xFFFF0000#32, 0x45000000#32)
  | .bc1t .. => (0xFFFF0000#32, 0x45010000#32)
  | .bc1fl .. => (0xFFFF0000#32, 0x45020000#32)
  | .bc1tl .. => (0xFFFF0000#32, 0x45030000#32)
  | .lwc2 .. => (0xFC000000#32, 0xC8000000#32)
  | .swc2 .. => (0xFC000000#32, 0xE8000000#32)
  | .mtc2 .. => (0xFFE007FF#32, 0x48800000#32)
  | .mfc2 .. => (0xFFE007FF#32, 0x48000000#32)
  | .ctc2 .. => (0xFFE007FF#32, 0x48C00000#32)
  | .cfc2 .. => (0xFFE007FF#32, 0x48400000#32)
  | .cop2 .. => (0xFE000000#32, 0x4A000000#32)
  | .bc2f .. => (0xFFFF0000#32, 0x49000000#32)
  | .bc2t .. => (0xFFFF0000#32, 0x49010000#32)
  | .bc2fl .. => (0xFFFF0000#32, 0x49020000#32)
  | .bc2tl .. => (0xFFFF0000#32, 0x49030000#32)
  | .lwc3 .. => (0xFC000000#32, 0xCC000000#32)
  | .swc3 .. => (0xFC000000#32, 0xEC000000#32)
  | .mtc3 .. => (0xFFE007FF#32, 0x4C800000#32)
  | .mfc3 .. => (0xFFE007FF#32, 0x4C000000#32)
  | .ctc3 .. => (0xFFE007FF#32, 0x4CC00000#32)
  | .cfc3 .. => (0xFFE007FF#32, 0x4C400000#32)
  | .cop3 .. => (0xFE000000#32, 0x4E000000#32)
  | .bc3f .. => (0xFFFF0000#32, 0x4D000000#32)
  | .bc3t .. => (0xFFFF0000#32, 0x4D010000#32)
  | .bc3fl .. => (0xFFFF0000#32, 0x4D020000#32)
  | .bc3tl .. => (0xFFFF0000#32, 0x4D030000#32)
  | .mfc0 .. => (0xFFE007FF#32, 0x40000000#32)
  | .mtc0 .. => (0xFFE007FF#32, 0x40800000#32)
  | .eret => (0xFFFFFFFF#32, 0x42000018#32)
  | .cache .. => (0xFC000000#32, 0xBC000000#32)

namespace EncodedOpcode

/-- The encoded word has the row's `match` under the row's `mask`. -/
def Statement (i : Instr) : Prop := encode i &&& (tableRow i).1 = (tableRow i).2

end EncodedOpcode

theorem encI_and (a a' : BitVec 6) (b b' c c' : BitVec 5) (d d' : Imm16) :
    encI a b c d &&& encI a' b' c' d' = encI (a &&& a') (b &&& b') (c &&& c') (d &&& d') := by
  refine BitVec.and_append.trans ?_
  rw [BitVec.and_append, BitVec.and_append]
  rfl

theorem encR_and (a a' f f' : BitVec 6) (b b' c c' d d' e e' : BitVec 5) :
    encR a b c d e f &&& encR a' b' c' d' e' f' =
      encR (a &&& a') (b &&& b') (c &&& c') (d &&& d') (e &&& e') (f &&& f') := by
  refine BitVec.and_append.trans ?_
  rw [BitVec.and_append, BitVec.and_append, BitVec.and_append, BitVec.and_append]
  rfl

theorem encJ_and (a a' : BitVec 6) (b b' : BitVec 26) : encJ a b &&& encJ a' b' = encJ (a &&& a') (b &&& b') :=
  BitVec.and_append

theorem and_ones6 (f : BitVec 6) : f &&& 0x3F#6 = f := by
  rw [show (0x3F#6 : BitVec 6) = BitVec.allOnes 6 from rfl, BitVec.and_allOnes]

theorem encCode_and (c : BitVec 20) (f : BitVec 6) : encCode c f &&& 0xFC00003F#32 = encCode 0 f := by
  rw [show (0xFC00003F#32 : Word) = 0x3F#6 ++ 0#20 ++ 0x3F#6 from rfl]
  refine BitVec.and_append.trans ?_
  rw [BitVec.and_append, BitVec.and_zero, and_ones6, and_ones6]
  rfl

theorem encCop_and (a : BitVec 6) (c : BitVec 25) : encCop a c &&& 0xFE000000#32 = encCop a 0 := by
  rw [show (0xFE000000#32 : Word) = 0x3F#6 ++ 1#1 ++ 0#25 from rfl]
  refine BitVec.and_append.trans ?_
  rw [BitVec.and_append, BitVec.and_zero, and_ones6]
  rfl

theorem EncodedOpcode.lb (base : Reg) (rt : Reg) (off : Imm16) : EncodedOpcode.Statement (.lb base rt off) := by
  change encI 0x20 base rt off &&& 0xFC000000#32 = 0x80000000#32
  rw [show (0xFC000000#32 : Word) = encI 63#6 0#5 0#5 0#16 from rfl, encI_and]
  simp only [BitVec.and_zero]
  rfl

theorem EncodedOpcode.lbu (base : Reg) (rt : Reg) (off : Imm16) : EncodedOpcode.Statement (.lbu base rt off) := by
  change encI 0x24 base rt off &&& 0xFC000000#32 = 0x90000000#32
  rw [show (0xFC000000#32 : Word) = encI 63#6 0#5 0#5 0#16 from rfl, encI_and]
  simp only [BitVec.and_zero]
  rfl

theorem EncodedOpcode.lh (base : Reg) (rt : Reg) (off : Imm16) : EncodedOpcode.Statement (.lh base rt off) := by
  change encI 0x21 base rt off &&& 0xFC000000#32 = 0x84000000#32
  rw [show (0xFC000000#32 : Word) = encI 63#6 0#5 0#5 0#16 from rfl, encI_and]
  simp only [BitVec.and_zero]
  rfl

theorem EncodedOpcode.lhu (base : Reg) (rt : Reg) (off : Imm16) : EncodedOpcode.Statement (.lhu base rt off) := by
  change encI 0x25 base rt off &&& 0xFC000000#32 = 0x94000000#32
  rw [show (0xFC000000#32 : Word) = encI 63#6 0#5 0#5 0#16 from rfl, encI_and]
  simp only [BitVec.and_zero]
  rfl

theorem EncodedOpcode.lwl (base : Reg) (rt : Reg) (off : Imm16) : EncodedOpcode.Statement (.lwl base rt off) := by
  change encI 0x22 base rt off &&& 0xFC000000#32 = 0x88000000#32
  rw [show (0xFC000000#32 : Word) = encI 63#6 0#5 0#5 0#16 from rfl, encI_and]
  simp only [BitVec.and_zero]
  rfl

theorem EncodedOpcode.lwr (base : Reg) (rt : Reg) (off : Imm16) : EncodedOpcode.Statement (.lwr base rt off) := by
  change encI 0x26 base rt off &&& 0xFC000000#32 = 0x98000000#32
  rw [show (0xFC000000#32 : Word) = encI 63#6 0#5 0#5 0#16 from rfl, encI_and]
  simp only [BitVec.and_zero]
  rfl

theorem EncodedOpcode.ll (base : Reg) (rt : Reg) (off : Imm16) : EncodedOpcode.Statement (.ll base rt off) := by
  change encI 0x30 base rt off &&& 0xFC000000#32 = 0xC0000000#32
  rw [show (0xFC000000#32 : Word) = encI 63#6 0#5 0#5 0#16 from rfl, encI_and]
  simp only [BitVec.and_zero]
  rfl

theorem EncodedOpcode.lw (base : Reg) (rt : Reg) (off : Imm16) : EncodedOpcode.Statement (.lw base rt off) := by
  change encI 0x23 base rt off &&& 0xFC000000#32 = 0x8C000000#32
  rw [show (0xFC000000#32 : Word) = encI 63#6 0#5 0#5 0#16 from rfl, encI_and]
  simp only [BitVec.and_zero]
  rfl

theorem EncodedOpcode.sb (base : Reg) (rt : Reg) (off : Imm16) : EncodedOpcode.Statement (.sb base rt off) := by
  change encI 0x28 base rt off &&& 0xFC000000#32 = 0xA0000000#32
  rw [show (0xFC000000#32 : Word) = encI 63#6 0#5 0#5 0#16 from rfl, encI_and]
  simp only [BitVec.and_zero]
  rfl

theorem EncodedOpcode.sh (base : Reg) (rt : Reg) (off : Imm16) : EncodedOpcode.Statement (.sh base rt off) := by
  change encI 0x29 base rt off &&& 0xFC000000#32 = 0xA4000000#32
  rw [show (0xFC000000#32 : Word) = encI 63#6 0#5 0#5 0#16 from rfl, encI_and]
  simp only [BitVec.and_zero]
  rfl

theorem EncodedOpcode.swl (base : Reg) (rt : Reg) (off : Imm16) : EncodedOpcode.Statement (.swl base rt off) := by
  change encI 0x2A base rt off &&& 0xFC000000#32 = 0xA8000000#32
  rw [show (0xFC000000#32 : Word) = encI 63#6 0#5 0#5 0#16 from rfl, encI_and]
  simp only [BitVec.and_zero]
  rfl

theorem EncodedOpcode.swr (base : Reg) (rt : Reg) (off : Imm16) : EncodedOpcode.Statement (.swr base rt off) := by
  change encI 0x2E base rt off &&& 0xFC000000#32 = 0xB8000000#32
  rw [show (0xFC000000#32 : Word) = encI 63#6 0#5 0#5 0#16 from rfl, encI_and]
  simp only [BitVec.and_zero]
  rfl

theorem EncodedOpcode.sc (base : Reg) (rt : Reg) (off : Imm16) : EncodedOpcode.Statement (.sc base rt off) := by
  change encI 0x38 base rt off &&& 0xFC000000#32 = 0xE0000000#32
  rw [show (0xFC000000#32 : Word) = encI 63#6 0#5 0#5 0#16 from rfl, encI_and]
  simp only [BitVec.and_zero]
  rfl

theorem EncodedOpcode.sw (base : Reg) (rt : Reg) (off : Imm16) : EncodedOpcode.Statement (.sw base rt off) := by
  change encI 0x2B base rt off &&& 0xFC000000#32 = 0xAC000000#32
  rw [show (0xFC000000#32 : Word) = encI 63#6 0#5 0#5 0#16 from rfl, encI_and]
  simp only [BitVec.and_zero]
  rfl

theorem EncodedOpcode.addi (rs : Reg) (rt : Reg) (imm : Imm16) : EncodedOpcode.Statement (.addi rs rt imm) := by
  change encI 0x08 rs rt imm &&& 0xFC000000#32 = 0x20000000#32
  rw [show (0xFC000000#32 : Word) = encI 63#6 0#5 0#5 0#16 from rfl, encI_and]
  simp only [BitVec.and_zero]
  rfl

theorem EncodedOpcode.addiu (rs : Reg) (rt : Reg) (imm : Imm16) : EncodedOpcode.Statement (.addiu rs rt imm) := by
  change encI 0x09 rs rt imm &&& 0xFC000000#32 = 0x24000000#32
  rw [show (0xFC000000#32 : Word) = encI 63#6 0#5 0#5 0#16 from rfl, encI_and]
  simp only [BitVec.and_zero]
  rfl

theorem EncodedOpcode.slti (rs : Reg) (rt : Reg) (imm : Imm16) : EncodedOpcode.Statement (.slti rs rt imm) := by
  change encI 0x0A rs rt imm &&& 0xFC000000#32 = 0x28000000#32
  rw [show (0xFC000000#32 : Word) = encI 63#6 0#5 0#5 0#16 from rfl, encI_and]
  simp only [BitVec.and_zero]
  rfl

theorem EncodedOpcode.sltiu (rs : Reg) (rt : Reg) (imm : Imm16) : EncodedOpcode.Statement (.sltiu rs rt imm) := by
  change encI 0x0B rs rt imm &&& 0xFC000000#32 = 0x2C000000#32
  rw [show (0xFC000000#32 : Word) = encI 63#6 0#5 0#5 0#16 from rfl, encI_and]
  simp only [BitVec.and_zero]
  rfl

theorem EncodedOpcode.andi (rs : Reg) (rt : Reg) (imm : Imm16) : EncodedOpcode.Statement (.andi rs rt imm) := by
  change encI 0x0C rs rt imm &&& 0xFC000000#32 = 0x30000000#32
  rw [show (0xFC000000#32 : Word) = encI 63#6 0#5 0#5 0#16 from rfl, encI_and]
  simp only [BitVec.and_zero]
  rfl

theorem EncodedOpcode.ori (rs : Reg) (rt : Reg) (imm : Imm16) : EncodedOpcode.Statement (.ori rs rt imm) := by
  change encI 0x0D rs rt imm &&& 0xFC000000#32 = 0x34000000#32
  rw [show (0xFC000000#32 : Word) = encI 63#6 0#5 0#5 0#16 from rfl, encI_and]
  simp only [BitVec.and_zero]
  rfl

theorem EncodedOpcode.xori (rs : Reg) (rt : Reg) (imm : Imm16) : EncodedOpcode.Statement (.xori rs rt imm) := by
  change encI 0x0E rs rt imm &&& 0xFC000000#32 = 0x38000000#32
  rw [show (0xFC000000#32 : Word) = encI 63#6 0#5 0#5 0#16 from rfl, encI_and]
  simp only [BitVec.and_zero]
  rfl

theorem EncodedOpcode.lui (rt : Reg) (imm : Imm16) : EncodedOpcode.Statement (.lui rt imm) := by
  change encI 0x0F 0 rt imm &&& 0xFFE00000#32 = 0x3C000000#32
  rw [show (0xFFE00000#32 : Word) = encI 63#6 31#5 0#5 0#16 from rfl, encI_and]
  simp only [BitVec.and_zero]
  rfl

theorem EncodedOpcode.add (rs : Reg) (rt : Reg) (rd : Reg) : EncodedOpcode.Statement (.add rs rt rd) := by
  change encR 0x00 rs rt rd 0 0x20 &&& 0xFC0007FF#32 = 0x00000020#32
  rw [show (0xFC0007FF#32 : Word) = encR 63#6 0#5 0#5 0#5 31#5 63#6 from rfl, encR_and]
  simp only [BitVec.and_zero]
  rfl

theorem EncodedOpcode.addu (rs : Reg) (rt : Reg) (rd : Reg) : EncodedOpcode.Statement (.addu rs rt rd) := by
  change encR 0x00 rs rt rd 0 0x21 &&& 0xFC0007FF#32 = 0x00000021#32
  rw [show (0xFC0007FF#32 : Word) = encR 63#6 0#5 0#5 0#5 31#5 63#6 from rfl, encR_and]
  simp only [BitVec.and_zero]
  rfl

theorem EncodedOpcode.sub (rs : Reg) (rt : Reg) (rd : Reg) : EncodedOpcode.Statement (.sub rs rt rd) := by
  change encR 0x00 rs rt rd 0 0x22 &&& 0xFC0007FF#32 = 0x00000022#32
  rw [show (0xFC0007FF#32 : Word) = encR 63#6 0#5 0#5 0#5 31#5 63#6 from rfl, encR_and]
  simp only [BitVec.and_zero]
  rfl

theorem EncodedOpcode.subu (rs : Reg) (rt : Reg) (rd : Reg) : EncodedOpcode.Statement (.subu rs rt rd) := by
  change encR 0x00 rs rt rd 0 0x23 &&& 0xFC0007FF#32 = 0x00000023#32
  rw [show (0xFC0007FF#32 : Word) = encR 63#6 0#5 0#5 0#5 31#5 63#6 from rfl, encR_and]
  simp only [BitVec.and_zero]
  rfl

theorem EncodedOpcode.slt (rs : Reg) (rt : Reg) (rd : Reg) : EncodedOpcode.Statement (.slt rs rt rd) := by
  change encR 0x00 rs rt rd 0 0x2A &&& 0xFC0007FF#32 = 0x0000002A#32
  rw [show (0xFC0007FF#32 : Word) = encR 63#6 0#5 0#5 0#5 31#5 63#6 from rfl, encR_and]
  simp only [BitVec.and_zero]
  rfl

theorem EncodedOpcode.sltu (rs : Reg) (rt : Reg) (rd : Reg) : EncodedOpcode.Statement (.sltu rs rt rd) := by
  change encR 0x00 rs rt rd 0 0x2B &&& 0xFC0007FF#32 = 0x0000002B#32
  rw [show (0xFC0007FF#32 : Word) = encR 63#6 0#5 0#5 0#5 31#5 63#6 from rfl, encR_and]
  simp only [BitVec.and_zero]
  rfl

theorem EncodedOpcode.and (rs : Reg) (rt : Reg) (rd : Reg) : EncodedOpcode.Statement (.and rs rt rd) := by
  change encR 0x00 rs rt rd 0 0x24 &&& 0xFC0007FF#32 = 0x00000024#32
  rw [show (0xFC0007FF#32 : Word) = encR 63#6 0#5 0#5 0#5 31#5 63#6 from rfl, encR_and]
  simp only [BitVec.and_zero]
  rfl

theorem EncodedOpcode.or (rs : Reg) (rt : Reg) (rd : Reg) : EncodedOpcode.Statement (.or rs rt rd) := by
  change encR 0x00 rs rt rd 0 0x25 &&& 0xFC0007FF#32 = 0x00000025#32
  rw [show (0xFC0007FF#32 : Word) = encR 63#6 0#5 0#5 0#5 31#5 63#6 from rfl, encR_and]
  simp only [BitVec.and_zero]
  rfl

theorem EncodedOpcode.xor (rs : Reg) (rt : Reg) (rd : Reg) : EncodedOpcode.Statement (.xor rs rt rd) := by
  change encR 0x00 rs rt rd 0 0x26 &&& 0xFC0007FF#32 = 0x00000026#32
  rw [show (0xFC0007FF#32 : Word) = encR 63#6 0#5 0#5 0#5 31#5 63#6 from rfl, encR_and]
  simp only [BitVec.and_zero]
  rfl

theorem EncodedOpcode.nor (rs : Reg) (rt : Reg) (rd : Reg) : EncodedOpcode.Statement (.nor rs rt rd) := by
  change encR 0x00 rs rt rd 0 0x27 &&& 0xFC0007FF#32 = 0x00000027#32
  rw [show (0xFC0007FF#32 : Word) = encR 63#6 0#5 0#5 0#5 31#5 63#6 from rfl, encR_and]
  simp only [BitVec.and_zero]
  rfl

theorem EncodedOpcode.sll (rt : Reg) (rd : Reg) (sa : BitVec 5) : EncodedOpcode.Statement (.sll rt rd sa) := by
  change encR 0x00 0 rt rd sa 0 &&& 0xFFE0003F#32 = 0x00000000#32
  rw [show (0xFFE0003F#32 : Word) = encR 63#6 31#5 0#5 0#5 0#5 63#6 from rfl, encR_and]
  simp only [BitVec.and_zero]
  rfl

theorem EncodedOpcode.srl (rt : Reg) (rd : Reg) (sa : BitVec 5) : EncodedOpcode.Statement (.srl rt rd sa) := by
  change encR 0x00 0 rt rd sa 0x02 &&& 0xFFE0003F#32 = 0x00000002#32
  rw [show (0xFFE0003F#32 : Word) = encR 63#6 31#5 0#5 0#5 0#5 63#6 from rfl, encR_and]
  simp only [BitVec.and_zero]
  rfl

theorem EncodedOpcode.sra (rt : Reg) (rd : Reg) (sa : BitVec 5) : EncodedOpcode.Statement (.sra rt rd sa) := by
  change encR 0x00 0 rt rd sa 0x03 &&& 0xFFE0003F#32 = 0x00000003#32
  rw [show (0xFFE0003F#32 : Word) = encR 63#6 31#5 0#5 0#5 0#5 63#6 from rfl, encR_and]
  simp only [BitVec.and_zero]
  rfl

theorem EncodedOpcode.sllv (rs : Reg) (rt : Reg) (rd : Reg) : EncodedOpcode.Statement (.sllv rs rt rd) := by
  change encR 0x00 rs rt rd 0 0x04 &&& 0xFC0007FF#32 = 0x00000004#32
  rw [show (0xFC0007FF#32 : Word) = encR 63#6 0#5 0#5 0#5 31#5 63#6 from rfl, encR_and]
  simp only [BitVec.and_zero]
  rfl

theorem EncodedOpcode.srlv (rs : Reg) (rt : Reg) (rd : Reg) : EncodedOpcode.Statement (.srlv rs rt rd) := by
  change encR 0x00 rs rt rd 0 0x06 &&& 0xFC0007FF#32 = 0x00000006#32
  rw [show (0xFC0007FF#32 : Word) = encR 63#6 0#5 0#5 0#5 31#5 63#6 from rfl, encR_and]
  simp only [BitVec.and_zero]
  rfl

theorem EncodedOpcode.srav (rs : Reg) (rt : Reg) (rd : Reg) : EncodedOpcode.Statement (.srav rs rt rd) := by
  change encR 0x00 rs rt rd 0 0x07 &&& 0xFC0007FF#32 = 0x00000007#32
  rw [show (0xFC0007FF#32 : Word) = encR 63#6 0#5 0#5 0#5 31#5 63#6 from rfl, encR_and]
  simp only [BitVec.and_zero]
  rfl

theorem EncodedOpcode.mult (rs : Reg) (rt : Reg) : EncodedOpcode.Statement (.mult rs rt) := by
  change encR 0x00 rs rt 0 0 0x18 &&& 0xFC00FFFF#32 = 0x00000018#32
  rw [show (0xFC00FFFF#32 : Word) = encR 63#6 0#5 0#5 31#5 31#5 63#6 from rfl, encR_and]
  simp only [BitVec.and_zero]
  rfl

theorem EncodedOpcode.multu (rs : Reg) (rt : Reg) : EncodedOpcode.Statement (.multu rs rt) := by
  change encR 0x00 rs rt 0 0 0x19 &&& 0xFC00FFFF#32 = 0x00000019#32
  rw [show (0xFC00FFFF#32 : Word) = encR 63#6 0#5 0#5 31#5 31#5 63#6 from rfl, encR_and]
  simp only [BitVec.and_zero]
  rfl

theorem EncodedOpcode.div (rs : Reg) (rt : Reg) : EncodedOpcode.Statement (.div rs rt) := by
  change encR 0x00 rs rt 0 0 0x1A &&& 0xFC00FFFF#32 = 0x0000001A#32
  rw [show (0xFC00FFFF#32 : Word) = encR 63#6 0#5 0#5 31#5 31#5 63#6 from rfl, encR_and]
  simp only [BitVec.and_zero]
  rfl

theorem EncodedOpcode.divu (rs : Reg) (rt : Reg) : EncodedOpcode.Statement (.divu rs rt) := by
  change encR 0x00 rs rt 0 0 0x1B &&& 0xFC00FFFF#32 = 0x0000001B#32
  rw [show (0xFC00FFFF#32 : Word) = encR 63#6 0#5 0#5 31#5 31#5 63#6 from rfl, encR_and]
  simp only [BitVec.and_zero]
  rfl

theorem EncodedOpcode.mfhi (rd : Reg) : EncodedOpcode.Statement (.mfhi rd) := by
  change encR 0x00 0 0 rd 0 0x10 &&& 0xFFFF07FF#32 = 0x00000010#32
  rw [show (0xFFFF07FF#32 : Word) = encR 63#6 31#5 31#5 0#5 31#5 63#6 from rfl, encR_and]
  simp only [BitVec.and_zero]
  rfl

theorem EncodedOpcode.mflo (rd : Reg) : EncodedOpcode.Statement (.mflo rd) := by
  change encR 0x00 0 0 rd 0 0x12 &&& 0xFFFF07FF#32 = 0x00000012#32
  rw [show (0xFFFF07FF#32 : Word) = encR 63#6 31#5 31#5 0#5 31#5 63#6 from rfl, encR_and]
  simp only [BitVec.and_zero]
  rfl

theorem EncodedOpcode.mthi (rs : Reg) : EncodedOpcode.Statement (.mthi rs) := by
  change encR 0x00 rs 0 0 0 0x11 &&& 0xFC1FFFFF#32 = 0x00000011#32
  rw [show (0xFC1FFFFF#32 : Word) = encR 63#6 0#5 31#5 31#5 31#5 63#6 from rfl, encR_and]
  simp only [BitVec.and_zero]
  rfl

theorem EncodedOpcode.mtlo (rs : Reg) : EncodedOpcode.Statement (.mtlo rs) := by
  change encR 0x00 rs 0 0 0 0x13 &&& 0xFC1FFFFF#32 = 0x00000013#32
  rw [show (0xFC1FFFFF#32 : Word) = encR 63#6 0#5 31#5 31#5 31#5 63#6 from rfl, encR_and]
  simp only [BitVec.and_zero]
  rfl

theorem EncodedOpcode.madd (rs : Reg) (rt : Reg) : EncodedOpcode.Statement (.madd rs rt) := by
  change encR 0x00 rs rt 0 0 0x1C &&& 0xFC00FFFF#32 = 0x0000001C#32
  rw [show (0xFC00FFFF#32 : Word) = encR 63#6 0#5 0#5 31#5 31#5 63#6 from rfl, encR_and]
  simp only [BitVec.and_zero]
  rfl

theorem EncodedOpcode.maddu (rs : Reg) (rt : Reg) : EncodedOpcode.Statement (.maddu rs rt) := by
  change encR 0x00 rs rt 0 0 0x1D &&& 0xFC00FFFF#32 = 0x0000001D#32
  rw [show (0xFC00FFFF#32 : Word) = encR 63#6 0#5 0#5 31#5 31#5 63#6 from rfl, encR_and]
  simp only [BitVec.and_zero]
  rfl

theorem EncodedOpcode.msub (rs : Reg) (rt : Reg) : EncodedOpcode.Statement (.msub rs rt) := by
  change encR 0x00 rs rt 0 0 0x2E &&& 0xFC00FFFF#32 = 0x0000002E#32
  rw [show (0xFC00FFFF#32 : Word) = encR 63#6 0#5 0#5 31#5 31#5 63#6 from rfl, encR_and]
  simp only [BitVec.and_zero]
  rfl

theorem EncodedOpcode.msubu (rs : Reg) (rt : Reg) : EncodedOpcode.Statement (.msubu rs rt) := by
  change encR 0x00 rs rt 0 0 0x2F &&& 0xFC00FFFF#32 = 0x0000002F#32
  rw [show (0xFC00FFFF#32 : Word) = encR 63#6 0#5 0#5 31#5 31#5 63#6 from rfl, encR_and]
  simp only [BitVec.and_zero]
  rfl

theorem EncodedOpcode.max (rs : Reg) (rt : Reg) (rd : Reg) : EncodedOpcode.Statement (.max rs rt rd) := by
  change encR 0x00 rs rt rd 0 0x2C &&& 0xFC0007FF#32 = 0x0000002C#32
  rw [show (0xFC0007FF#32 : Word) = encR 63#6 0#5 0#5 0#5 31#5 63#6 from rfl, encR_and]
  simp only [BitVec.and_zero]
  rfl

theorem EncodedOpcode.min (rs : Reg) (rt : Reg) (rd : Reg) : EncodedOpcode.Statement (.min rs rt rd) := by
  change encR 0x00 rs rt rd 0 0x2D &&& 0xFC0007FF#32 = 0x0000002D#32
  rw [show (0xFC0007FF#32 : Word) = encR 63#6 0#5 0#5 0#5 31#5 63#6 from rfl, encR_and]
  simp only [BitVec.and_zero]
  rfl

theorem EncodedOpcode.movn (rs : Reg) (rt : Reg) (rd : Reg) : EncodedOpcode.Statement (.movn rs rt rd) := by
  change encR 0x00 rs rt rd 0 0x0B &&& 0xFC0007FF#32 = 0x0000000B#32
  rw [show (0xFC0007FF#32 : Word) = encR 63#6 0#5 0#5 0#5 31#5 63#6 from rfl, encR_and]
  simp only [BitVec.and_zero]
  rfl

theorem EncodedOpcode.movz (rs : Reg) (rt : Reg) (rd : Reg) : EncodedOpcode.Statement (.movz rs rt rd) := by
  change encR 0x00 rs rt rd 0 0x0A &&& 0xFC0007FF#32 = 0x0000000A#32
  rw [show (0xFC0007FF#32 : Word) = encR 63#6 0#5 0#5 0#5 31#5 63#6 from rfl, encR_and]
  simp only [BitVec.and_zero]
  rfl

theorem EncodedOpcode.ext (rs : Reg) (rt : Reg) (sizeM1 : BitVec 5) (pos : BitVec 5) : EncodedOpcode.Statement (.ext rs rt sizeM1 pos) := by
  change encR 0x1F rs rt sizeM1 pos 0 &&& 0xFC00003F#32 = 0x7C000000#32
  rw [show (0xFC00003F#32 : Word) = encR 63#6 0#5 0#5 0#5 0#5 63#6 from rfl, encR_and]
  simp only [BitVec.and_zero]
  rfl

theorem EncodedOpcode.ins (rs : Reg) (rt : Reg) (msb : BitVec 5) (pos : BitVec 5) : EncodedOpcode.Statement (.ins rs rt msb pos) := by
  change encR 0x1F rs rt msb pos 0x04 &&& 0xFC00003F#32 = 0x7C000004#32
  rw [show (0xFC00003F#32 : Word) = encR 63#6 0#5 0#5 0#5 0#5 63#6 from rfl, encR_and]
  simp only [BitVec.and_zero]
  rfl

theorem EncodedOpcode.seb (rt : Reg) (rd : Reg) : EncodedOpcode.Statement (.seb rt rd) := by
  change encR 0x1F 0 rt rd 0x10 0x20 &&& 0xFFE007FF#32 = 0x7C000420#32
  rw [show (0xFFE007FF#32 : Word) = encR 63#6 31#5 0#5 0#5 31#5 63#6 from rfl, encR_and]
  simp only [BitVec.and_zero]
  rfl

theorem EncodedOpcode.seh (rt : Reg) (rd : Reg) : EncodedOpcode.Statement (.seh rt rd) := by
  change encR 0x1F 0 rt rd 0x18 0x20 &&& 0xFFE007FF#32 = 0x7C000620#32
  rw [show (0xFFE007FF#32 : Word) = encR 63#6 31#5 0#5 0#5 31#5 63#6 from rfl, encR_and]
  simp only [BitVec.and_zero]
  rfl

theorem EncodedOpcode.rotr (rt : Reg) (rd : Reg) (sa : BitVec 5) : EncodedOpcode.Statement (.rotr rt rd sa) := by
  change encR 0x00 0x01 rt rd sa 0x02 &&& 0xFFE0003F#32 = 0x00200002#32
  rw [show (0xFFE0003F#32 : Word) = encR 63#6 31#5 0#5 0#5 0#5 63#6 from rfl, encR_and]
  simp only [BitVec.and_zero]
  rfl

theorem EncodedOpcode.rotrv (rs : Reg) (rt : Reg) (rd : Reg) : EncodedOpcode.Statement (.rotrv rs rt rd) := by
  change encR 0x00 rs rt rd 0x01 0x06 &&& 0xFC0007FF#32 = 0x00000046#32
  rw [show (0xFC0007FF#32 : Word) = encR 63#6 0#5 0#5 0#5 31#5 63#6 from rfl, encR_and]
  simp only [BitVec.and_zero]
  rfl

theorem EncodedOpcode.wsbh (rt : Reg) (rd : Reg) : EncodedOpcode.Statement (.wsbh rt rd) := by
  change encR 0x1F 0 rt rd 0x02 0x20 &&& 0xFFE007FF#32 = 0x7C0000A0#32
  rw [show (0xFFE007FF#32 : Word) = encR 63#6 31#5 0#5 0#5 31#5 63#6 from rfl, encR_and]
  simp only [BitVec.and_zero]
  rfl

theorem EncodedOpcode.wsbw (rt : Reg) (rd : Reg) : EncodedOpcode.Statement (.wsbw rt rd) := by
  change encR 0x1F 0 rt rd 0x03 0x20 &&& 0xFFE007FF#32 = 0x7C0000E0#32
  rw [show (0xFFE007FF#32 : Word) = encR 63#6 31#5 0#5 0#5 31#5 63#6 from rfl, encR_and]
  simp only [BitVec.and_zero]
  rfl

theorem EncodedOpcode.bitrev (rt : Reg) (rd : Reg) : EncodedOpcode.Statement (.bitrev rt rd) := by
  change encR 0x1F 0 rt rd 0x14 0x20 &&& 0xFFE007FF#32 = 0x7C000520#32
  rw [show (0xFFE007FF#32 : Word) = encR 63#6 31#5 0#5 0#5 31#5 63#6 from rfl, encR_and]
  simp only [BitVec.and_zero]
  rfl

theorem EncodedOpcode.clz (rs : Reg) (rd : Reg) : EncodedOpcode.Statement (.clz rs rd) := by
  change encR 0x00 rs 0 rd 0 0x16 &&& 0xFC1F07FF#32 = 0x00000016#32
  rw [show (0xFC1F07FF#32 : Word) = encR 63#6 0#5 31#5 0#5 31#5 63#6 from rfl, encR_and]
  simp only [BitVec.and_zero]
  rfl

theorem EncodedOpcode.clo (rs : Reg) (rd : Reg) : EncodedOpcode.Statement (.clo rs rd) := by
  change encR 0x00 rs 0 rd 0 0x17 &&& 0xFC1F07FF#32 = 0x00000017#32
  rw [show (0xFC1F07FF#32 : Word) = encR 63#6 0#5 31#5 0#5 31#5 63#6 from rfl, encR_and]
  simp only [BitVec.and_zero]
  rfl

theorem EncodedOpcode.j (target : BitVec 26) : EncodedOpcode.Statement (.j target) := by
  change encJ 0x02 target &&& 0xFC000000#32 = 0x08000000#32
  rw [show (0xFC000000#32 : Word) = encJ 63#6 0#26 from rfl, encJ_and]
  simp only [BitVec.and_zero]
  rfl

theorem EncodedOpcode.jal (target : BitVec 26) : EncodedOpcode.Statement (.jal target) := by
  change encJ 0x03 target &&& 0xFC000000#32 = 0x0C000000#32
  rw [show (0xFC000000#32 : Word) = encJ 63#6 0#26 from rfl, encJ_and]
  simp only [BitVec.and_zero]
  rfl

theorem EncodedOpcode.jr (rs : Reg) : EncodedOpcode.Statement (.jr rs) := by
  change encR 0x00 rs 0 0 0 0x08 &&& 0xFC1FFFFF#32 = 0x00000008#32
  rw [show (0xFC1FFFFF#32 : Word) = encR 63#6 0#5 31#5 31#5 31#5 63#6 from rfl, encR_and]
  simp only [BitVec.and_zero]
  rfl

theorem EncodedOpcode.jalr (rs : Reg) (rd : Reg) : EncodedOpcode.Statement (.jalr rs rd) := by
  change encR 0x00 rs 0 rd 0 0x09 &&& 0xFC1F07FF#32 = 0x00000009#32
  rw [show (0xFC1F07FF#32 : Word) = encR 63#6 0#5 31#5 0#5 31#5 63#6 from rfl, encR_and]
  simp only [BitVec.and_zero]
  rfl

theorem EncodedOpcode.beq (rs : Reg) (rt : Reg) (off : Imm16) : EncodedOpcode.Statement (.beq rs rt off) := by
  change encI 0x04 rs rt off &&& 0xFC000000#32 = 0x10000000#32
  rw [show (0xFC000000#32 : Word) = encI 63#6 0#5 0#5 0#16 from rfl, encI_and]
  simp only [BitVec.and_zero]
  rfl

theorem EncodedOpcode.bne (rs : Reg) (rt : Reg) (off : Imm16) : EncodedOpcode.Statement (.bne rs rt off) := by
  change encI 0x05 rs rt off &&& 0xFC000000#32 = 0x14000000#32
  rw [show (0xFC000000#32 : Word) = encI 63#6 0#5 0#5 0#16 from rfl, encI_and]
  simp only [BitVec.and_zero]
  rfl

theorem EncodedOpcode.blez (rs : Reg) (off : Imm16) : EncodedOpcode.Statement (.blez rs off) := by
  change encI 0x06 rs 0 off &&& 0xFC1F0000#32 = 0x18000000#32
  rw [show (0xFC1F0000#32 : Word) = encI 63#6 0#5 31#5 0#16 from rfl, encI_and]
  simp only [BitVec.and_zero]
  rfl

theorem EncodedOpcode.bgtz (rs : Reg) (off : Imm16) : EncodedOpcode.Statement (.bgtz rs off) := by
  change encI 0x07 rs 0 off &&& 0xFC1F0000#32 = 0x1C000000#32
  rw [show (0xFC1F0000#32 : Word) = encI 63#6 0#5 31#5 0#16 from rfl, encI_and]
  simp only [BitVec.and_zero]
  rfl

theorem EncodedOpcode.bltz (rs : Reg) (off : Imm16) : EncodedOpcode.Statement (.bltz rs off) := by
  change encI 0x01 rs 0 off &&& 0xFC1F0000#32 = 0x04000000#32
  rw [show (0xFC1F0000#32 : Word) = encI 63#6 0#5 31#5 0#16 from rfl, encI_and]
  simp only [BitVec.and_zero]
  rfl

theorem EncodedOpcode.bgez (rs : Reg) (off : Imm16) : EncodedOpcode.Statement (.bgez rs off) := by
  change encI 0x01 rs 0x01 off &&& 0xFC1F0000#32 = 0x04010000#32
  rw [show (0xFC1F0000#32 : Word) = encI 63#6 0#5 31#5 0#16 from rfl, encI_and]
  simp only [BitVec.and_zero]
  rfl

theorem EncodedOpcode.bltzal (rs : Reg) (off : Imm16) : EncodedOpcode.Statement (.bltzal rs off) := by
  change encI 0x01 rs 0x10 off &&& 0xFC1F0000#32 = 0x04100000#32
  rw [show (0xFC1F0000#32 : Word) = encI 63#6 0#5 31#5 0#16 from rfl, encI_and]
  simp only [BitVec.and_zero]
  rfl

theorem EncodedOpcode.bgezal (rs : Reg) (off : Imm16) : EncodedOpcode.Statement (.bgezal rs off) := by
  change encI 0x01 rs 0x11 off &&& 0xFC1F0000#32 = 0x04110000#32
  rw [show (0xFC1F0000#32 : Word) = encI 63#6 0#5 31#5 0#16 from rfl, encI_and]
  simp only [BitVec.and_zero]
  rfl

theorem EncodedOpcode.bltzl (rs : Reg) (off : Imm16) : EncodedOpcode.Statement (.bltzl rs off) := by
  change encI 0x01 rs 0x02 off &&& 0xFC1F0000#32 = 0x04020000#32
  rw [show (0xFC1F0000#32 : Word) = encI 63#6 0#5 31#5 0#16 from rfl, encI_and]
  simp only [BitVec.and_zero]
  rfl

theorem EncodedOpcode.bgezl (rs : Reg) (off : Imm16) : EncodedOpcode.Statement (.bgezl rs off) := by
  change encI 0x01 rs 0x03 off &&& 0xFC1F0000#32 = 0x04030000#32
  rw [show (0xFC1F0000#32 : Word) = encI 63#6 0#5 31#5 0#16 from rfl, encI_and]
  simp only [BitVec.and_zero]
  rfl

theorem EncodedOpcode.bltzall (rs : Reg) (off : Imm16) : EncodedOpcode.Statement (.bltzall rs off) := by
  change encI 0x01 rs 0x12 off &&& 0xFC1F0000#32 = 0x04120000#32
  rw [show (0xFC1F0000#32 : Word) = encI 63#6 0#5 31#5 0#16 from rfl, encI_and]
  simp only [BitVec.and_zero]
  rfl

theorem EncodedOpcode.bgezall (rs : Reg) (off : Imm16) : EncodedOpcode.Statement (.bgezall rs off) := by
  change encI 0x01 rs 0x13 off &&& 0xFC1F0000#32 = 0x04130000#32
  rw [show (0xFC1F0000#32 : Word) = encI 63#6 0#5 31#5 0#16 from rfl, encI_and]
  simp only [BitVec.and_zero]
  rfl

theorem EncodedOpcode.beql (rs : Reg) (rt : Reg) (off : Imm16) : EncodedOpcode.Statement (.beql rs rt off) := by
  change encI 0x14 rs rt off &&& 0xFC000000#32 = 0x50000000#32
  rw [show (0xFC000000#32 : Word) = encI 63#6 0#5 0#5 0#16 from rfl, encI_and]
  simp only [BitVec.and_zero]
  rfl

theorem EncodedOpcode.bnel (rs : Reg) (rt : Reg) (off : Imm16) : EncodedOpcode.Statement (.bnel rs rt off) := by
  change encI 0x15 rs rt off &&& 0xFC000000#32 = 0x54000000#32
  rw [show (0xFC000000#32 : Word) = encI 63#6 0#5 0#5 0#16 from rfl, encI_and]
  simp only [BitVec.and_zero]
  rfl

theorem EncodedOpcode.blezl (rs : Reg) (off : Imm16) : EncodedOpcode.Statement (.blezl rs off) := by
  change encI 0x16 rs 0 off &&& 0xFC1F0000#32 = 0x58000000#32
  rw [show (0xFC1F0000#32 : Word) = encI 63#6 0#5 31#5 0#16 from rfl, encI_and]
  simp only [BitVec.and_zero]
  rfl

theorem EncodedOpcode.bgtzl (rs : Reg) (off : Imm16) : EncodedOpcode.Statement (.bgtzl rs off) := by
  change encI 0x17 rs 0 off &&& 0xFC1F0000#32 = 0x5C000000#32
  rw [show (0xFC1F0000#32 : Word) = encI 63#6 0#5 31#5 0#16 from rfl, encI_and]
  simp only [BitVec.and_zero]
  rfl

theorem EncodedOpcode.syscall (code : BitVec 20) : EncodedOpcode.Statement (.syscall code) := by
  change encCode code 0x0C &&& 0xFC00003F#32 = 0x0000000C#32
  rw [encCode_and]
  rfl

theorem EncodedOpcode.brk (code : BitVec 20) : EncodedOpcode.Statement (.brk code) := by
  change encCode code 0x0D &&& 0xFC00003F#32 = 0x0000000D#32
  rw [encCode_and]
  rfl

theorem EncodedOpcode.sync : EncodedOpcode.Statement (.sync) := by
  change encR 0x00 0 0 0 0 0x0F &&& 0xFFFFFFFF#32 = 0x0000000F#32
  rfl

theorem EncodedOpcode.lwc1 (base : Reg) (rt : Reg) (off : Imm16) : EncodedOpcode.Statement (.lwc1 base rt off) := by
  change encI 0x31 base rt off &&& 0xFC000000#32 = 0xC4000000#32
  rw [show (0xFC000000#32 : Word) = encI 63#6 0#5 0#5 0#16 from rfl, encI_and]
  simp only [BitVec.and_zero]
  rfl

theorem EncodedOpcode.swc1 (base : Reg) (rt : Reg) (off : Imm16) : EncodedOpcode.Statement (.swc1 base rt off) := by
  change encI 0x39 base rt off &&& 0xFC000000#32 = 0xE4000000#32
  rw [show (0xFC000000#32 : Word) = encI 63#6 0#5 0#5 0#16 from rfl, encI_and]
  simp only [BitVec.and_zero]
  rfl

theorem EncodedOpcode.mtc1 (rt : Reg) (rd : Reg) : EncodedOpcode.Statement (.mtc1 rt rd) := by
  change encR 0x11 0x04 rt rd 0 0 &&& 0xFFE007FF#32 = 0x44800000#32
  rw [show (0xFFE007FF#32 : Word) = encR 63#6 31#5 0#5 0#5 31#5 63#6 from rfl, encR_and]
  simp only [BitVec.and_zero]
  rfl

theorem EncodedOpcode.mfc1 (rt : Reg) (rd : Reg) : EncodedOpcode.Statement (.mfc1 rt rd) := by
  change encR 0x11 0 rt rd 0 0 &&& 0xFFE007FF#32 = 0x44000000#32
  rw [show (0xFFE007FF#32 : Word) = encR 63#6 31#5 0#5 0#5 31#5 63#6 from rfl, encR_and]
  simp only [BitVec.and_zero]
  rfl

theorem EncodedOpcode.ctc1 (rt : Reg) (rd : Reg) : EncodedOpcode.Statement (.ctc1 rt rd) := by
  change encR 0x11 0x06 rt rd 0 0 &&& 0xFFE007FF#32 = 0x44C00000#32
  rw [show (0xFFE007FF#32 : Word) = encR 63#6 31#5 0#5 0#5 31#5 63#6 from rfl, encR_and]
  simp only [BitVec.and_zero]
  rfl

theorem EncodedOpcode.cfc1 (rt : Reg) (rd : Reg) : EncodedOpcode.Statement (.cfc1 rt rd) := by
  change encR 0x11 0x02 rt rd 0 0 &&& 0xFFE007FF#32 = 0x44400000#32
  rw [show (0xFFE007FF#32 : Word) = encR 63#6 31#5 0#5 0#5 31#5 63#6 from rfl, encR_and]
  simp only [BitVec.and_zero]
  rfl

theorem EncodedOpcode.cop1 (cofun : BitVec 25) : EncodedOpcode.Statement (.cop1 cofun) := by
  change encCop 0x11 cofun &&& 0xFE000000#32 = 0x46000000#32
  rw [encCop_and]
  rfl

theorem EncodedOpcode.bc1f (off : Imm16) : EncodedOpcode.Statement (.bc1f off) := by
  change encI 0x11 0x08 0 off &&& 0xFFFF0000#32 = 0x45000000#32
  rw [show (0xFFFF0000#32 : Word) = encI 63#6 31#5 31#5 0#16 from rfl, encI_and]
  simp only [BitVec.and_zero]
  rfl

theorem EncodedOpcode.bc1t (off : Imm16) : EncodedOpcode.Statement (.bc1t off) := by
  change encI 0x11 0x08 0x01 off &&& 0xFFFF0000#32 = 0x45010000#32
  rw [show (0xFFFF0000#32 : Word) = encI 63#6 31#5 31#5 0#16 from rfl, encI_and]
  simp only [BitVec.and_zero]
  rfl

theorem EncodedOpcode.bc1fl (off : Imm16) : EncodedOpcode.Statement (.bc1fl off) := by
  change encI 0x11 0x08 0x02 off &&& 0xFFFF0000#32 = 0x45020000#32
  rw [show (0xFFFF0000#32 : Word) = encI 63#6 31#5 31#5 0#16 from rfl, encI_and]
  simp only [BitVec.and_zero]
  rfl

theorem EncodedOpcode.bc1tl (off : Imm16) : EncodedOpcode.Statement (.bc1tl off) := by
  change encI 0x11 0x08 0x03 off &&& 0xFFFF0000#32 = 0x45030000#32
  rw [show (0xFFFF0000#32 : Word) = encI 63#6 31#5 31#5 0#16 from rfl, encI_and]
  simp only [BitVec.and_zero]
  rfl

theorem EncodedOpcode.lwc2 (base : Reg) (rt : Reg) (off : Imm16) : EncodedOpcode.Statement (.lwc2 base rt off) := by
  change encI 0x32 base rt off &&& 0xFC000000#32 = 0xC8000000#32
  rw [show (0xFC000000#32 : Word) = encI 63#6 0#5 0#5 0#16 from rfl, encI_and]
  simp only [BitVec.and_zero]
  rfl

theorem EncodedOpcode.swc2 (base : Reg) (rt : Reg) (off : Imm16) : EncodedOpcode.Statement (.swc2 base rt off) := by
  change encI 0x3A base rt off &&& 0xFC000000#32 = 0xE8000000#32
  rw [show (0xFC000000#32 : Word) = encI 63#6 0#5 0#5 0#16 from rfl, encI_and]
  simp only [BitVec.and_zero]
  rfl

theorem EncodedOpcode.mtc2 (rt : Reg) (rd : Reg) : EncodedOpcode.Statement (.mtc2 rt rd) := by
  change encR 0x12 0x04 rt rd 0 0 &&& 0xFFE007FF#32 = 0x48800000#32
  rw [show (0xFFE007FF#32 : Word) = encR 63#6 31#5 0#5 0#5 31#5 63#6 from rfl, encR_and]
  simp only [BitVec.and_zero]
  rfl

theorem EncodedOpcode.mfc2 (rt : Reg) (rd : Reg) : EncodedOpcode.Statement (.mfc2 rt rd) := by
  change encR 0x12 0 rt rd 0 0 &&& 0xFFE007FF#32 = 0x48000000#32
  rw [show (0xFFE007FF#32 : Word) = encR 63#6 31#5 0#5 0#5 31#5 63#6 from rfl, encR_and]
  simp only [BitVec.and_zero]
  rfl

theorem EncodedOpcode.ctc2 (rt : Reg) (rd : Reg) : EncodedOpcode.Statement (.ctc2 rt rd) := by
  change encR 0x12 0x06 rt rd 0 0 &&& 0xFFE007FF#32 = 0x48C00000#32
  rw [show (0xFFE007FF#32 : Word) = encR 63#6 31#5 0#5 0#5 31#5 63#6 from rfl, encR_and]
  simp only [BitVec.and_zero]
  rfl

theorem EncodedOpcode.cfc2 (rt : Reg) (rd : Reg) : EncodedOpcode.Statement (.cfc2 rt rd) := by
  change encR 0x12 0x02 rt rd 0 0 &&& 0xFFE007FF#32 = 0x48400000#32
  rw [show (0xFFE007FF#32 : Word) = encR 63#6 31#5 0#5 0#5 31#5 63#6 from rfl, encR_and]
  simp only [BitVec.and_zero]
  rfl

theorem EncodedOpcode.cop2 (cofun : BitVec 25) : EncodedOpcode.Statement (.cop2 cofun) := by
  change encCop 0x12 cofun &&& 0xFE000000#32 = 0x4A000000#32
  rw [encCop_and]
  rfl

theorem EncodedOpcode.bc2f (off : Imm16) : EncodedOpcode.Statement (.bc2f off) := by
  change encI 0x12 0x08 0 off &&& 0xFFFF0000#32 = 0x49000000#32
  rw [show (0xFFFF0000#32 : Word) = encI 63#6 31#5 31#5 0#16 from rfl, encI_and]
  simp only [BitVec.and_zero]
  rfl

theorem EncodedOpcode.bc2t (off : Imm16) : EncodedOpcode.Statement (.bc2t off) := by
  change encI 0x12 0x08 0x01 off &&& 0xFFFF0000#32 = 0x49010000#32
  rw [show (0xFFFF0000#32 : Word) = encI 63#6 31#5 31#5 0#16 from rfl, encI_and]
  simp only [BitVec.and_zero]
  rfl

theorem EncodedOpcode.bc2fl (off : Imm16) : EncodedOpcode.Statement (.bc2fl off) := by
  change encI 0x12 0x08 0x02 off &&& 0xFFFF0000#32 = 0x49020000#32
  rw [show (0xFFFF0000#32 : Word) = encI 63#6 31#5 31#5 0#16 from rfl, encI_and]
  simp only [BitVec.and_zero]
  rfl

theorem EncodedOpcode.bc2tl (off : Imm16) : EncodedOpcode.Statement (.bc2tl off) := by
  change encI 0x12 0x08 0x03 off &&& 0xFFFF0000#32 = 0x49030000#32
  rw [show (0xFFFF0000#32 : Word) = encI 63#6 31#5 31#5 0#16 from rfl, encI_and]
  simp only [BitVec.and_zero]
  rfl

theorem EncodedOpcode.lwc3 (base : Reg) (rt : Reg) (off : Imm16) : EncodedOpcode.Statement (.lwc3 base rt off) := by
  change encI 0x33 base rt off &&& 0xFC000000#32 = 0xCC000000#32
  rw [show (0xFC000000#32 : Word) = encI 63#6 0#5 0#5 0#16 from rfl, encI_and]
  simp only [BitVec.and_zero]
  rfl

theorem EncodedOpcode.swc3 (base : Reg) (rt : Reg) (off : Imm16) : EncodedOpcode.Statement (.swc3 base rt off) := by
  change encI 0x3B base rt off &&& 0xFC000000#32 = 0xEC000000#32
  rw [show (0xFC000000#32 : Word) = encI 63#6 0#5 0#5 0#16 from rfl, encI_and]
  simp only [BitVec.and_zero]
  rfl

theorem EncodedOpcode.mtc3 (rt : Reg) (rd : Reg) : EncodedOpcode.Statement (.mtc3 rt rd) := by
  change encR 0x13 0x04 rt rd 0 0 &&& 0xFFE007FF#32 = 0x4C800000#32
  rw [show (0xFFE007FF#32 : Word) = encR 63#6 31#5 0#5 0#5 31#5 63#6 from rfl, encR_and]
  simp only [BitVec.and_zero]
  rfl

theorem EncodedOpcode.mfc3 (rt : Reg) (rd : Reg) : EncodedOpcode.Statement (.mfc3 rt rd) := by
  change encR 0x13 0 rt rd 0 0 &&& 0xFFE007FF#32 = 0x4C000000#32
  rw [show (0xFFE007FF#32 : Word) = encR 63#6 31#5 0#5 0#5 31#5 63#6 from rfl, encR_and]
  simp only [BitVec.and_zero]
  rfl

theorem EncodedOpcode.ctc3 (rt : Reg) (rd : Reg) : EncodedOpcode.Statement (.ctc3 rt rd) := by
  change encR 0x13 0x06 rt rd 0 0 &&& 0xFFE007FF#32 = 0x4CC00000#32
  rw [show (0xFFE007FF#32 : Word) = encR 63#6 31#5 0#5 0#5 31#5 63#6 from rfl, encR_and]
  simp only [BitVec.and_zero]
  rfl

theorem EncodedOpcode.cfc3 (rt : Reg) (rd : Reg) : EncodedOpcode.Statement (.cfc3 rt rd) := by
  change encR 0x13 0x02 rt rd 0 0 &&& 0xFFE007FF#32 = 0x4C400000#32
  rw [show (0xFFE007FF#32 : Word) = encR 63#6 31#5 0#5 0#5 31#5 63#6 from rfl, encR_and]
  simp only [BitVec.and_zero]
  rfl

theorem EncodedOpcode.cop3 (cofun : BitVec 25) : EncodedOpcode.Statement (.cop3 cofun) := by
  change encCop 0x13 cofun &&& 0xFE000000#32 = 0x4E000000#32
  rw [encCop_and]
  rfl

theorem EncodedOpcode.bc3f (off : Imm16) : EncodedOpcode.Statement (.bc3f off) := by
  change encI 0x13 0x08 0 off &&& 0xFFFF0000#32 = 0x4D000000#32
  rw [show (0xFFFF0000#32 : Word) = encI 63#6 31#5 31#5 0#16 from rfl, encI_and]
  simp only [BitVec.and_zero]
  rfl

theorem EncodedOpcode.bc3t (off : Imm16) : EncodedOpcode.Statement (.bc3t off) := by
  change encI 0x13 0x08 0x01 off &&& 0xFFFF0000#32 = 0x4D010000#32
  rw [show (0xFFFF0000#32 : Word) = encI 63#6 31#5 31#5 0#16 from rfl, encI_and]
  simp only [BitVec.and_zero]
  rfl

theorem EncodedOpcode.bc3fl (off : Imm16) : EncodedOpcode.Statement (.bc3fl off) := by
  change encI 0x13 0x08 0x02 off &&& 0xFFFF0000#32 = 0x4D020000#32
  rw [show (0xFFFF0000#32 : Word) = encI 63#6 31#5 31#5 0#16 from rfl, encI_and]
  simp only [BitVec.and_zero]
  rfl

theorem EncodedOpcode.bc3tl (off : Imm16) : EncodedOpcode.Statement (.bc3tl off) := by
  change encI 0x13 0x08 0x03 off &&& 0xFFFF0000#32 = 0x4D030000#32
  rw [show (0xFFFF0000#32 : Word) = encI 63#6 31#5 31#5 0#16 from rfl, encI_and]
  simp only [BitVec.and_zero]
  rfl

theorem EncodedOpcode.mfc0 (rt : Reg) (rd : Cp0Reg) : EncodedOpcode.Statement (.mfc0 rt rd) := by
  change encR 0x10 0 rt (cp0Number rd) 0 0 &&& 0xFFE007FF#32 = 0x40000000#32
  rw [show (0xFFE007FF#32 : Word) = encR 63#6 31#5 0#5 0#5 31#5 63#6 from rfl, encR_and]
  simp only [BitVec.and_zero]
  rfl

theorem EncodedOpcode.mtc0 (rt : Reg) (rd : Cp0Reg) : EncodedOpcode.Statement (.mtc0 rt rd) := by
  change encR 0x10 0x04 rt (cp0Number rd) 0 0 &&& 0xFFE007FF#32 = 0x40800000#32
  rw [show (0xFFE007FF#32 : Word) = encR 63#6 31#5 0#5 0#5 31#5 63#6 from rfl, encR_and]
  simp only [BitVec.and_zero]
  rfl

theorem EncodedOpcode.eret : EncodedOpcode.Statement (.eret) := by
  rfl

theorem EncodedOpcode.cache (base : Reg) (op : CacheOp) (off : Imm16) : EncodedOpcode.Statement (.cache base op off) := by
  change encI 0x2F base (cacheCode op) off &&& 0xFC000000#32 = 0xBC000000#32
  rw [show (0xFC000000#32 : Word) = encI 63#6 0#5 0#5 0#16 from rfl, encI_and]
  simp only [BitVec.and_zero]
  rfl

end Sys2Proof.Laws
end

