-- ==== Sys2Proof/Laws/Ways.lean ====
section
/-! SUPPORT. Which way of a cache set a load, a store or a fill touches, and what it leaves in it. -/

namespace Sys2Proof.Machine

/-- The victim of a set is the way that R111 names. -/
theorem fillsWay_victim {δ : Type} (c : CacheSet δ) (fillWayB : Bool) : FillsWay c fillWayB (c.victim fillWayB) := by
  unfold FillsWay CacheSet.victim CacheSet.old
  cases c.a.valid <;> cases c.b.valid <;> simp

/-- A touch of a way is an access to it that leaves the line. -/
theorem accessedWay_touch {δ : Type} (c : CacheSet δ) (w : WaySel) : AccessedWay c (c.touch w) w (c.way w) c.lock :=
  ⟨by simp, by simp, by cases w <;> rfl, rfl⟩

/-- A line put into a way, which is then touched. -/
theorem accessedWay_setWay_touch {δ : Type} (c : CacheSet δ) (w : WaySel) (x : Way δ) :
    AccessedWay c ((c.setWay w x).touch w) w x c.lock :=
  ⟨by simp, by cases w <;> rfl, by cases w <;> rfl, rfl⟩

/-- A line put into the way that was accessed. -/
theorem AccessedWay.setWay {δ : Type} {c d : CacheSet δ} {w : WaySel} {x : Way δ} {l : Bool} (h : AccessedWay c d w x l)
    (y : Way δ) : AccessedWay c (d.setWay w y) w y l :=
  ⟨by simp, by rw [← h.2.1]; cases w <;> rfl, by rw [← h.2.2.1]; cases w <;> rfl, by rw [← h.2.2.2]; cases w <;> rfl⟩

/-- Lock set or cleared in a set that was accessed. -/
theorem AccessedWay.withLock {δ : Type} {c d : CacheSet δ} {w : WaySel} {x : Way δ} {l : Bool} (h : AccessedWay c d w x l)
    (m : Bool) : AccessedWay c { d with lock := m } w x m :=
  ⟨by rw [← h.1]; cases w <;> rfl, by rw [← h.2.1]; cases w <;> rfl, h.2.2.1, rfl⟩

theorem sameOtherDsets_setDset (s : State) (va : Word) (c : CacheSet Bool) : SameOtherDsets va s (s.setDset va c) :=
  fun a ha => by rw [State.dset_setDset, if_neg ha]

theorem SameOtherDsets.trans {va : Word} {s t u : State} (h : SameOtherDsets va s t) (g : SameOtherDsets va t u) :
    SameOtherDsets va s u := fun a ha => (g a ha).trans (h a ha)

/-- What an instruction cache fill of a way leaves. -/
theorem filledI_fill (s : State) (va : Word) {w : WaySel} {fillWayB : Bool} (h : FillsWay (s.iset va) fillWayB w) :
    FilledI va w fillWayB (s.iset va).lock s ((s.fillIset va w).touchI va w) := by
  refine ⟨h, ?_, ?_⟩
  · intro a ha
    rw [State.touchI, State.iset_setIset, if_neg ha, State.fillIset, State.iset_setIset, if_neg ha]
  · rw [State.touchI, State.iset_setIset_same, State.fillIset, State.iset_setIset_same]
    exact accessedWay_setWay_touch _ _ _

/-- The ways that R111 allows differ only where both are invalid, and then neither is dirty to write back. -/
theorem dirtyVictim_fillsWay {s : State} {va : Word} {v w : WaySel} {p q : Bool} (hv : FillsWay (s.dset va) p v)
    (hw : FillsWay (s.dset va) q w) : s.dirtyVictim va v = s.dirtyVictim va w := by
  obtain ⟨v1, v2, v3, -⟩ := hv
  obtain ⟨w1, w2, w3, -⟩ := hw
  cases ha : (s.dset va).a.valid <;> cases hb : (s.dset va).b.valid
  · cases v <;> cases w <;> simp [State.dirtyVictim, CacheSet.way, ha, hb]
  · rw [v2 ha hb, w2 ha hb]
  · rw [v1 ha hb, w1 ha hb]
  · rw [v3 ha hb, w3 ha hb]

/-- The state after a data cache fill of a way. -/
abbrev State.filled (s : State) (va : Word) (w : WaySel) : State :=
  (((s.settleLine va).evict va w).fillDset va w).touchD va w

/-- What a data cache fill of a way leaves. -/
theorem filledD_filled (s : State) (va : Word) {w : WaySel} {fillWayB : Bool} (h : FillsWay (s.dset va) fillWayB w) :
    FilledD va w fillWayB (s.dset va).lock s (s.filled va w) := by
  unfold State.filled
  have hr : s.refillMemory va = ((s.settleLine va).evict va w).mem := by
    have := dirtyVictim_fillsWay (s := s.settleLine va) (fillsWay_victim (s.dset va) s.env.fillWayB) h
    simp only [State.refillMemory, State.evict]; rw [State.victimD, this]
  have hdv : (s.settleLine va).dirtyVictim va w = s.dirtyVictim va w := rfl
  refine ⟨h, ?_, hr.symm, ?_, fun h => refillMemory_of_empty h va, ?_, ?_, ?_⟩
  · intro a ha
    rw [State.touchD, State.dset_setDset, if_neg ha, State.fillDset, State.dset_setDset, if_neg ha]; rfl
  · rw [State.touchD, State.dset_setDset_same, State.fillDset, State.dset_setDset_same, hr]
    exact accessedWay_setWay_touch _ _ _
  · intro x hx
    rw [hr]
    show (if (s.settleLine va).dirtyVictim va w then (s.settleLine va).memAfterWriteback else (s.settleLine va).mem) = _
    rw [hdv]
    have hh : s.writebackHolds va = decide (x.va = lineAddress (lineTag va) (setIndex va)) := by
      simp only [State.writebackHolds, hx]; rw [Bool.eq_iff_iff]; simp
    have e1 : s.memAfterWriteback = s.env.writeLine s.mem (physical x.va) x.data := by simp only [State.memAfterWriteback, hx]
    by_cases h1 : x.va = lineAddress (lineTag va) (setIndex va)
    · have hh' : s.writebackHolds va = true := by rw [hh]; exact decide_eq_true h1
      have e2 : (s.settleLine va).memAfterWriteback = s.memAfterWriteback := by
        simp [State.settleLine, hh', State.memAfterWriteback]
      have e3 : (s.settleLine va).mem = s.memAfterWriteback := by simp [State.settleLine, hh']
      rw [e2, e3, ite_self, if_pos (.inl h1), e1]
    · have hh' : s.writebackHolds va = false := by rw [hh]; exact decide_eq_false h1
      have e2 : s.settleLine va = s := by simp only [State.settleLine, hh']; rfl
      rw [e2, e1]
      by_cases hd : s.dirtyVictim va w = true
      · have : ((s.dset va).way w).valid = true ∧ ((s.dset va).way w).dirty = true := by simpa [State.dirtyVictim] using hd
        rw [if_pos hd, if_pos (.inr this)]
      · have : ¬ (((s.dset va).way w).valid = true ∧ ((s.dset va).way w).dirty = true) := by
          simpa [State.dirtyVictim] using hd
        rw [if_neg hd, if_neg (by rintro (a | a); exacts [h1 a, this a])]
  · intro a b
    have hd : s.dirtyVictim va w = true := by simp [State.dirtyVictim, a, b]
    show (if (s.settleLine va).dirtyVictim va w then _ else _) = _
    rw [hdv, if_pos hd]; rfl
  · intro a
    have hd : s.dirtyVictim va w = false := by rcases a with a | a <;> simp [State.dirtyVictim, a]
    have : ((((s.settleLine va).evict va w).fillDset va w).touchD va w).writeback =
        (if s.writebackHolds va then none else s.writeback) := by
      show (if (s.settleLine va).dirtyVictim va w then _ else _) = _
      rw [hdv, hd]; rfl
    rw [this]
    exact ⟨fun h => by simp [h], fun x hx => by simp [State.writebackHolds, hx]⟩

/-- What a hit leaves. -/
theorem touchD_hit (s : State) (va : Word) (w : WaySel) :
    SameOtherDsets va s (s.touchD va w) ∧
      AccessedWay (s.dset va) ((s.touchD va w).dset va) w ((s.dset va).way w) (s.dset va).lock :=
  ⟨sameOtherDsets_setDset _ _ _, by rw [State.touchD, State.dset_setDset_same]; exact accessedWay_touch _ _⟩

/-- What a load does to the data side. -/
theorem loadBytes_dataRead {s t : State} {va : Word} {n : Nat} {bs : List Byte} (h : loadBytes va n s = .ok bs t) :
    DataRead va s t := by
  unfold loadBytes at h
  split at h
  · next hc =>
    have no : ¬ cachedAddress va = false := by simp [hc]
    rcases dcacheAccess_cases s .load va with ⟨w, hf, he⟩ | ⟨hf, hb, he⟩ | ⟨hf, hb, he⟩ <;>
      rw [he] at h <;> simp only [Access.bind, Access.ok.injEq, reduceCtorEq] at h
    · obtain ⟨-, rfl⟩ := h
      exact ⟨rfl, fun h => absurd h no,
        fun _ v hv => by rw [hf] at hv; cases hv; exact ⟨rfl, rfl, touchD_hit s va w⟩,
        fun _ hn => by rw [hf] at hn; cases hn⟩
    · obtain ⟨-, rfl⟩ := h
      exact ⟨rfl, fun h => absurd h no, fun _ v hv => (by rw [hf] at hv; cases hv),
        fun _ _ => ⟨_, filledD_filled s va (fillsWay_victim _ _)⟩⟩
  · next hc =>
    split at h
    · cases h
    · cases h; exact ⟨rfl, fun _ => ⟨rfl, rfl, rfl⟩, fun h => absurd h hc, fun h => absurd h hc⟩

/-- A store to a way that holds the line leaves the line written. -/
theorem way_store {x : Way Bool} {va : Word} {d : Line} (bs : List Byte) (hv : x.valid = true) (ht : x.tag = lineTag va)
    (hd : x.data = d) : x.store va bs = writtenWay va bs d := by
  subst hd; cases x; cases hv; cases ht; rfl

/-- The line stays where it is found when a store writes it. -/
theorem find_setWay_store {c : CacheSet Bool} {va : Word} {w : WaySel} (h : c.find (lineTag va) = some w) (bs : List Byte) :
    (c.setWay w ((c.way w).store va bs)).find (lineTag va) = some w := by
  rw [CacheSet.find_congr c (lineTag va)]
  · exact h
  all_goals
    intro v
    by_cases e : v = w
    · subst e; simp [Way.store]
    · simp [e]

/-- What a store does to the data side. -/
theorem storeBytes_dataWritten {s t : State} {va : Word} {bs : List Byte} {x : Unit} (h : storeBytes va bs s = .ok x t) :
    DataWritten va bs s t := by
  unfold storeBytes at h
  split at h
  · next hc =>
    have no : ¬ cachedAddress va = false := by simp [hc]
    rcases dcacheAccess_cases s .store va with ⟨w, hf, he⟩ | ⟨hf, hb, he⟩ | ⟨hf, hb, he⟩ <;>
      rw [he] at h <;> simp only [Access.bind, Access.ok.injEq, reduceCtorEq] at h
    · obtain ⟨-, rfl⟩ := h
      have hw := CacheSet.find_some _ (dcacheAccess_find s he)
      obtain ⟨o, a⟩ := touchD_hit s va w
      refine ⟨fun h => absurd h no, fun _ => ⟨rfl, o.trans (sameOtherDsets_setDset _ _ _), ?_⟩,
        fun _ v hv => ?_, fun _ hn => by rw [hf] at hn; cases hn⟩
      · rw [State.dset_setDset_same, find_setWay_store (dcacheAccess_find s he)]; rfl
      · rw [hf] at hv; cases hv
        refine ⟨rfl, rfl, ?_⟩
        rw [State.dset_setDset_same, way_store bs hw.1 hw.2 (congrArg Way.data a.1)]
        exact a.setWay _
    · obtain ⟨-, rfl⟩ := h
      have hw := CacheSet.find_some _ (dcacheAccess_find s he)
      have fd := filledD_filled s va (fillsWay_victim _ s.env.fillWayB)
      refine ⟨fun h => absurd h no, fun _ => ⟨rfl, fd.2.1.trans (sameOtherDsets_setDset _ _ _), ?_⟩,
        fun _ v hv => (by rw [hf] at hv; cases hv), fun _ _ => ⟨_, _, fd, rfl, rfl, ?_⟩⟩
      · rw [State.dset_setDset_same, find_setWay_store (dcacheAccess_find s he)]; rfl
      · rw [State.dset_setDset_same, way_store bs hw.1 hw.2 (congrArg Way.data fd.2.2.2.1.1)]
        exact fd.2.2.2.1.setWay _
  · next hc =>
    cases h
    refine ⟨fun _ => ⟨rfl, rfl, fun hl => ?_, fun hl => ?_⟩, fun h => absurd h hc, fun h => absurd h hc, fun h => absurd h hc⟩
    · have : s.overflow = 0 := by simp [State.overflow]; omega
      simp [State.pushStore, this, Environment.commitStores]
    · have : s.overflow = 1 := by simp [State.overflow]; omega
      simp [State.pushStore, this]

/-- A load acts on the data side alike at every address of a line. -/
theorem DataRead.sameLine {a va : Word} {s t : State} (h : SameLine a va) (g : DataRead a s t) : DataRead va s t := by
  have r : s.refillMemory a = s.refillMemory va := by
    simp only [State.refillMemory, State.evict, State.settleLine, State.writebackHolds, State.dirtyVictim, State.victimD,
      State.dset, h.setIndex_eq, h.lineTag_eq]; rfl
  obtain ⟨g1, g2, g3, g4⟩ := g
  rw [h.cachedAddress_eq] at g2 g3 g4
  rw [h.lineTag_eq, s.dset_congr h, t.dset_congr h] at g3
  rw [h.lineTag_eq, s.dset_congr h] at g4
  simp only [SameOtherDsets, FilledD, h.setIndex_eq, h.lineTag_eq, h.physicalLine_eq, r, s.dset_congr h, t.dset_congr h] at g3 g4
  exact ⟨g1, g2, g3, g4⟩

/-- MemRead on the data side. -/
theorem memRead_dataRead {s t : State} {va : Word} {n : Nat} {v : Word} (h : memRead va n s = .ok v t) : DataRead va s t := by
  obtain ⟨_, x, hx, hr⟩ := Access.bind_ok h
  have := checkAddress_next s hx; subst this
  obtain ⟨_, u, hu, he⟩ := Access.bind_ok hr
  cases he; exact loadBytes_dataRead hu

/-- The access of LWL and LWR on the data side. -/
theorem memReadPart_dataRead {s t : State} {va start : Word} {n : Nat} {v : Word} (hl : SameLine start va)
    (h : memReadPart va start n s = .ok v t) : DataRead va s t := by
  obtain ⟨_, x, hx, hr⟩ := Access.bind_ok h
  have := checkAddress_next s hx; subst this
  obtain ⟨_, u, hu, he⟩ := Access.bind_ok hr
  cases he; exact (loadBytes_dataRead hu).sameLine hl

/-- MemWrite on the data side. -/
theorem memWrite_dataWritten {s t : State} {va : Word} {n : Nat} {v : Word} {x : Unit} (h : memWrite va n v s = .ok x t) :
    DataWritten va (layOut s.bigEndian n v) s t := by
  obtain ⟨_, z, hz, hw⟩ := Access.bind_ok h
  have := checkAddress_next s hz; subst this
  exact storeBytes_dataWritten hw

/-- The access of SWL and SWR on the data side. -/
theorem memWritePart_dataWritten {s t : State} {va start : Word} {n : Nat} {v : Word} {x : Unit}
    (h : memWritePart va start n v s = .ok x t) : DataWritten start (layOut s.bigEndian n v) s t := by
  obtain ⟨_, z, hz, hw⟩ := Access.bind_ok h
  have := checkAddress_next s hz; subst this
  exact storeBytes_dataWritten hw

end Sys2Proof.Machine
end

