-- ==== Sys2Proof/Tests/Slice0.lean ====
section
/-! SUPPORT. Tests: ill-formed terms refused, one written-out word for each instruction, one step on small states with
the results that the spec's vectors give (95_test_vectors.md, 96_test_vectors_system.md), and a witness for the hypotheses
of each statement. -/

namespace Sys2Proof.Tests

open Sys2Proof Sys2Proof.Machine

set_option maxRecDepth 8000

/-! ## Small states -/

/-- The start state of the vectors' conventions: kernel mode, `EBase = 0x88000000`, `pc = 0x88000100`. -/
def start : State :=
  { State.reset with
    pc := 0x88000100, npc := 0x88000104, last1 := .other, last2 := .other, env := quietEnvironment
    cp0 := { resetCp0 with status := Status.ofWord 0, ebase := 0x88000000 } }

/-- `start` with general registers set. -/
def regs : List (Reg × Word) → State
  | [] => start
  | (r, v) :: rest => (regs rest).setReg r v

/-- `regs` over the shared example memory of the vectors, at physical 0x08001000. -/
def mem (l : List (Reg × Word)) : State :=
  { regs l with mem := Memory.writeBytes [] 0x08001000 [0x80, 0x91, 0xA2, 0xB3, 0xC4, 0xD5, 0xE6, 0xF7] }

/-- A state with the Status register `v`. -/
def status (v : Word) (s : State) : State := { s with cp0 := { s.cp0 with status := Status.ofWord v } }

/-- A state with HI and LO. -/
def hiLo (h l : Word) (s : State) : State := { s with hi := h, lo := l }

/-- A state with CpCond[1] = 1. -/
def fpuCond (s : State) : State := { s with cop1 := { s.cop1 with ctl := { s.cop1.ctl with cond := true } } }

/-- A state in which every bus read of an access kind fails. -/
def failing (k : AccessKind) (s : State) : State :=
  { s with env := { s.env with map := [{ plainRam with
      fetchError := k == .fetch, loadError := k == .load, storeError := k == .store }] } }

/-- A state in which the physical addresses from 0x10000000 on hold something other than RAM. -/
def mapped (k : RegionKind) (s : State) : State :=
  { s with env := { s.env with map := [{ plainRam with lo := 0x10000000, hi := 0x20000000, kind := k }] } }

/-- A valid way of bytes 0x5A. -/
def lineOf {δ : Type} (tag : BitVec 19) (d : δ) : Way δ :=
  { valid := true, tag := tag, data := Vector.replicate 64 0x5A, dirty := d }

/-- A state with instruction cache set 65. -/
def iway (s : State) (c : CacheSet Unit) : State := s.setIset 0x88001040#32 c

/-- A state with data cache set 65. -/
def dway (s : State) (c : CacheSet Bool) : State := s.setDset 0x88001040#32 c

/-- The eight bytes of the example memory as loads deliver them. -/
def bytes (s : State) : List Byte := s.bytesAt 0x88001000#32 8

/-- `pc` has moved on from the vectors' start. -/
def nextPc (t : State) : Bool := t.pc == 0x88000104#32 && t.npc == 0x88000108#32 && !t.inDelaySlot

/-- `pc` is at the delay slot of a transfer from the vectors' start, with `next` after it. -/
def slot (next : Word) (t : State) : Bool := t.pc == 0x88000104#32 && t.npc == next && t.inDelaySlot

/-- The delay slot of a branch-likely at the vectors' start was skipped. -/
def skipped (t : State) : Bool := t.pc == 0x88000108#32 && t.npc == 0x8800010C#32 && !t.inDelaySlot

/-- The exception with this code was taken from the vectors' start. -/
def took (code : BitVec 5) (t : State) : Bool :=
  t.pc == 0x88000000#32 && t.cp0.epc == 0x88000100#32 && t.cp0.cause.excCode == code && !t.cp0.cause.bd &&
    t.cp0.status.toWord == 2#32

/-- A result is a next state with a property. -/
def nextWith (r : Result) (p : State → Bool) : Bool := match r with | .next t => p t | .fault _ | .refused _ => false

/-- The instruction of a word gives a next state with a property. -/
def runs (w : Word) (s : State) (p : State → Bool) : Bool := nextWith (runWord w s) p

/-- The step that fetches a word gives a next state with a property. -/
def steps (w : Nat) (s : State) (p : State → Bool) : Bool := nextWith (step (s.withFetchWord 32 w)) p

/-! ## Ill-formed terms are refused -/

theorem test_wellFormed_refuses_named_cp0_number :
    (Instr.mfc0 2 (.reserved 12)).wellFormed = false ∧ (Instr.mtc0 2 (.reserved 12)).wellFormed = false ∧
    (Instr.mfc0 2 (.reserved 17)).wellFormed = true := by decide

theorem test_wellFormed_refuses_named_cache_code :
    (Instr.cache 4 (.blank 26) 0).wellFormed = false ∧ (Instr.cache 4 (.blank 0) 0).wellFormed = true := by decide

/-! ## Decoding: words written out from the tables of 30_encoding.md -/

theorem test_decode_load_store :
    decode 0b100000_10110_01011_1000111100011101#32 = .ok (.lb 0x16 0xb 0x8f1d) ∧
    decode 0b100100_10110_01011_1000111100011101#32 = .ok (.lbu 0x16 0xb 0x8f1d) ∧
    decode 0b100001_10110_01011_1000111100011101#32 = .ok (.lh 0x16 0xb 0x8f1d) ∧
    decode 0b100101_10110_01011_1000111100011101#32 = .ok (.lhu 0x16 0xb 0x8f1d) ∧
    decode 0b100010_10110_01011_1000111100011101#32 = .ok (.lwl 0x16 0xb 0x8f1d) ∧
    decode 0b100110_10110_01011_1000111100011101#32 = .ok (.lwr 0x16 0xb 0x8f1d) ∧
    decode 0b110000_10110_01011_1000111100011101#32 = .ok (.ll 0x16 0xb 0x8f1d) ∧
    decode 0b100011_10110_01011_1000111100011101#32 = .ok (.lw 0x16 0xb 0x8f1d) ∧
    decode 0b101000_10110_01011_1000111100011101#32 = .ok (.sb 0x16 0xb 0x8f1d) ∧
    decode 0b101001_10110_01011_1000111100011101#32 = .ok (.sh 0x16 0xb 0x8f1d) ∧
    decode 0b101010_10110_01011_1000111100011101#32 = .ok (.swl 0x16 0xb 0x8f1d) ∧
    decode 0b101110_10110_01011_1000111100011101#32 = .ok (.swr 0x16 0xb 0x8f1d) ∧
    decode 0b111000_10110_01011_1000111100011101#32 = .ok (.sc 0x16 0xb 0x8f1d) ∧
    decode 0b101011_10110_01011_1000111100011101#32 = .ok (.sw 0x16 0xb 0x8f1d) := by
  decide

theorem test_decode_alu_1 :
    decode 0b001000_10110_01011_1000111100011101#32 = .ok (.addi 0x16 0xb 0x8f1d) ∧
    decode 0b001001_10110_01011_1000111100011101#32 = .ok (.addiu 0x16 0xb 0x8f1d) ∧
    decode 0b001010_10110_01011_1000111100011101#32 = .ok (.slti 0x16 0xb 0x8f1d) ∧
    decode 0b001011_10110_01011_1000111100011101#32 = .ok (.sltiu 0x16 0xb 0x8f1d) ∧
    decode 0b001100_10110_01011_1000111100011101#32 = .ok (.andi 0x16 0xb 0x8f1d) ∧
    decode 0b001101_10110_01011_1000111100011101#32 = .ok (.ori 0x16 0xb 0x8f1d) ∧
    decode 0b001110_10110_01011_1000111100011101#32 = .ok (.xori 0x16 0xb 0x8f1d) ∧
    decode 0b001111_00000_01011_1000111100011101#32 = .ok (.lui 0xb 0x8f1d) ∧
    decode 0b000000_10110_01011_11001_00000_100000#32 = .ok (.add 0x16 0xb 0x19) ∧
    decode 0b000000_10110_01011_11001_00000_100001#32 = .ok (.addu 0x16 0xb 0x19) ∧
    decode 0b000000_10110_01011_11001_00000_100010#32 = .ok (.sub 0x16 0xb 0x19) ∧
    decode 0b000000_10110_01011_11001_00000_100011#32 = .ok (.subu 0x16 0xb 0x19) ∧
    decode 0b000000_10110_01011_11001_00000_101010#32 = .ok (.slt 0x16 0xb 0x19) ∧
    decode 0b000000_10110_01011_11001_00000_101011#32 = .ok (.sltu 0x16 0xb 0x19) ∧
    decode 0b000000_10110_01011_11001_00000_100100#32 = .ok (.and 0x16 0xb 0x19) ∧
    decode 0b000000_10110_01011_11001_00000_100101#32 = .ok (.or 0x16 0xb 0x19) ∧
    decode 0b000000_10110_01011_11001_00000_100110#32 = .ok (.xor 0x16 0xb 0x19) ∧
    decode 0b000000_10110_01011_11001_00000_100111#32 = .ok (.nor 0x16 0xb 0x19) ∧
    decode 0b000000_00000_01011_11001_00111_000000#32 = .ok (.sll 0xb 0x19 0x7) ∧
    decode 0b000000_00000_01011_11001_00111_000010#32 = .ok (.srl 0xb 0x19 0x7) ∧
    decode 0b000000_00000_01011_11001_00111_000011#32 = .ok (.sra 0xb 0x19 0x7) ∧
    decode 0b000000_10110_01011_11001_00000_000100#32 = .ok (.sllv 0x16 0xb 0x19) := by
  decide

theorem test_decode_alu_2 :
    decode 0b000000_10110_01011_11001_00000_000110#32 = .ok (.srlv 0x16 0xb 0x19) ∧
    decode 0b000000_10110_01011_11001_00000_000111#32 = .ok (.srav 0x16 0xb 0x19) := by
  decide

theorem test_decode_muldiv :
    decode 0b000000_10110_01011_00000_00000_011000#32 = .ok (.mult 0x16 0xb) ∧
    decode 0b000000_10110_01011_00000_00000_011001#32 = .ok (.multu 0x16 0xb) ∧
    decode 0b000000_10110_01011_00000_00000_011010#32 = .ok (.div 0x16 0xb) ∧
    decode 0b000000_10110_01011_00000_00000_011011#32 = .ok (.divu 0x16 0xb) ∧
    decode 0b000000_00000_00000_11001_00000_010000#32 = .ok (.mfhi 0x19) ∧
    decode 0b000000_00000_00000_11001_00000_010010#32 = .ok (.mflo 0x19) ∧
    decode 0b000000_10110_00000_00000_00000_010001#32 = .ok (.mthi 0x16) ∧
    decode 0b000000_10110_00000_00000_00000_010011#32 = .ok (.mtlo 0x16) ∧
    decode 0b000000_10110_01011_00000_00000_011100#32 = .ok (.madd 0x16 0xb) ∧
    decode 0b000000_10110_01011_00000_00000_011101#32 = .ok (.maddu 0x16 0xb) ∧
    decode 0b000000_10110_01011_00000_00000_101110#32 = .ok (.msub 0x16 0xb) ∧
    decode 0b000000_10110_01011_00000_00000_101111#32 = .ok (.msubu 0x16 0xb) := by
  decide

theorem test_decode_extended :
    decode 0b000000_10110_01011_11001_00000_101100#32 = .ok (.max 0x16 0xb 0x19) ∧
    decode 0b000000_10110_01011_11001_00000_101101#32 = .ok (.min 0x16 0xb 0x19) ∧
    decode 0b000000_10110_01011_11001_00000_001011#32 = .ok (.movn 0x16 0xb 0x19) ∧
    decode 0b000000_10110_01011_11001_00000_001010#32 = .ok (.movz 0x16 0xb 0x19) ∧
    decode 0b011111_10110_01011_01011_01000_000000#32 = .ok (.ext 0x16 0xb 0xb 0x8) ∧
    decode 0b011111_10110_01011_10011_01000_000100#32 = .ok (.ins 0x16 0xb 0x13 0x8) ∧
    decode 0b011111_00000_01011_11001_10000_100000#32 = .ok (.seb 0xb 0x19) ∧
    decode 0b011111_00000_01011_11001_11000_100000#32 = .ok (.seh 0xb 0x19) ∧
    decode 0b000000_00001_01011_11001_00111_000010#32 = .ok (.rotr 0xb 0x19 0x7) ∧
    decode 0b000000_10110_01011_11001_00001_000110#32 = .ok (.rotrv 0x16 0xb 0x19) ∧
    decode 0b011111_00000_01011_11001_00010_100000#32 = .ok (.wsbh 0xb 0x19) ∧
    decode 0b011111_00000_01011_11001_00011_100000#32 = .ok (.wsbw 0xb 0x19) ∧
    decode 0b011111_00000_01011_11001_10100_100000#32 = .ok (.bitrev 0xb 0x19) ∧
    decode 0b000000_10110_00000_11001_00000_010110#32 = .ok (.clz 0x16 0x19) ∧
    decode 0b000000_10110_00000_11001_00000_010111#32 = .ok (.clo 0x16 0x19) := by
  decide

theorem test_decode_jump_branch :
    decode 0b000010_10101001011100001111010111#32 = .ok (.j 0x2a5c3d7) ∧
    decode 0b000011_10101001011100001111010111#32 = .ok (.jal 0x2a5c3d7) ∧
    decode 0b000000_10110_00000_00000_00000_001000#32 = .ok (.jr 0x16) ∧
    decode 0b000000_10110_00000_11001_00000_001001#32 = .ok (.jalr 0x16 0x19) ∧
    decode 0b000100_10110_01011_1000111100011101#32 = .ok (.beq 0x16 0xb 0x8f1d) ∧
    decode 0b000101_10110_01011_1000111100011101#32 = .ok (.bne 0x16 0xb 0x8f1d) ∧
    decode 0b000110_10110_00000_1000111100011101#32 = .ok (.blez 0x16 0x8f1d) ∧
    decode 0b000111_10110_00000_1000111100011101#32 = .ok (.bgtz 0x16 0x8f1d) ∧
    decode 0b000001_10110_00000_1000111100011101#32 = .ok (.bltz 0x16 0x8f1d) ∧
    decode 0b000001_10110_00001_1000111100011101#32 = .ok (.bgez 0x16 0x8f1d) ∧
    decode 0b000001_10110_10000_1000111100011101#32 = .ok (.bltzal 0x16 0x8f1d) ∧
    decode 0b000001_10110_10001_1000111100011101#32 = .ok (.bgezal 0x16 0x8f1d) ∧
    decode 0b000001_10110_00010_1000111100011101#32 = .ok (.bltzl 0x16 0x8f1d) ∧
    decode 0b000001_10110_00011_1000111100011101#32 = .ok (.bgezl 0x16 0x8f1d) ∧
    decode 0b000001_10110_10010_1000111100011101#32 = .ok (.bltzall 0x16 0x8f1d) ∧
    decode 0b000001_10110_10011_1000111100011101#32 = .ok (.bgezall 0x16 0x8f1d) ∧
    decode 0b010100_10110_01011_1000111100011101#32 = .ok (.beql 0x16 0xb 0x8f1d) ∧
    decode 0b010101_10110_01011_1000111100011101#32 = .ok (.bnel 0x16 0xb 0x8f1d) ∧
    decode 0b010110_10110_00000_1000111100011101#32 = .ok (.blezl 0x16 0x8f1d) ∧
    decode 0b010111_10110_00000_1000111100011101#32 = .ok (.bgtzl 0x16 0x8f1d) := by
  decide

theorem test_decode_special :
    decode 0b000000_10100101110000111101_001100#32 = .ok (.syscall 0xa5c3d) ∧
    decode 0b000000_10100101110000111101_001101#32 = .ok (.brk 0xa5c3d) ∧
    decode 0b000000_00000_00000_00000_00000_001111#32 = .ok .sync := by
  decide

theorem test_decode_coprocessor_1 :
    decode 0b110001_10110_01011_1000111100011101#32 = .ok (.lwc1 0x16 0xb 0x8f1d) ∧
    decode 0b111001_10110_01011_1000111100011101#32 = .ok (.swc1 0x16 0xb 0x8f1d) ∧
    decode 0b010001_00100_01011_11001_00000_000000#32 = .ok (.mtc1 0xb 0x19) ∧
    decode 0b010001_00000_01011_11001_00000_000000#32 = .ok (.mfc1 0xb 0x19) ∧
    decode 0b010001_00110_01011_11001_00000_000000#32 = .ok (.ctc1 0xb 0x19) ∧
    decode 0b010001_00010_01011_11001_00000_000000#32 = .ok (.cfc1 0xb 0x19) ∧
    decode 0b010001_1_1010111000011110101110010#32 = .ok (.cop1 0x15c3d72) ∧
    decode 0b010001_01000_00000_1000111100011101#32 = .ok (.bc1f 0x8f1d) ∧
    decode 0b010001_01000_00001_1000111100011101#32 = .ok (.bc1t 0x8f1d) ∧
    decode 0b010001_01000_00010_1000111100011101#32 = .ok (.bc1fl 0x8f1d) ∧
    decode 0b010001_01000_00011_1000111100011101#32 = .ok (.bc1tl 0x8f1d) ∧
    decode 0b110010_10110_01011_1000111100011101#32 = .ok (.lwc2 0x16 0xb 0x8f1d) ∧
    decode 0b111010_10110_01011_1000111100011101#32 = .ok (.swc2 0x16 0xb 0x8f1d) ∧
    decode 0b010010_00100_01011_11001_00000_000000#32 = .ok (.mtc2 0xb 0x19) ∧
    decode 0b010010_00000_01011_11001_00000_000000#32 = .ok (.mfc2 0xb 0x19) ∧
    decode 0b010010_00110_01011_11001_00000_000000#32 = .ok (.ctc2 0xb 0x19) ∧
    decode 0b010010_00010_01011_11001_00000_000000#32 = .ok (.cfc2 0xb 0x19) ∧
    decode 0b010010_1_1010111000011110101110010#32 = .ok (.cop2 0x15c3d72) ∧
    decode 0b010010_01000_00000_1000111100011101#32 = .ok (.bc2f 0x8f1d) ∧
    decode 0b010010_01000_00001_1000111100011101#32 = .ok (.bc2t 0x8f1d) ∧
    decode 0b010010_01000_00010_1000111100011101#32 = .ok (.bc2fl 0x8f1d) ∧
    decode 0b010010_01000_00011_1000111100011101#32 = .ok (.bc2tl 0x8f1d) := by
  decide

theorem test_decode_coprocessor_2 :
    decode 0b110011_10110_01011_1000111100011101#32 = .ok (.lwc3 0x16 0xb 0x8f1d) ∧
    decode 0b111011_10110_01011_1000111100011101#32 = .ok (.swc3 0x16 0xb 0x8f1d) ∧
    decode 0b010011_00100_01011_11001_00000_000000#32 = .ok (.mtc3 0xb 0x19) ∧
    decode 0b010011_00000_01011_11001_00000_000000#32 = .ok (.mfc3 0xb 0x19) ∧
    decode 0b010011_00110_01011_11001_00000_000000#32 = .ok (.ctc3 0xb 0x19) ∧
    decode 0b010011_00010_01011_11001_00000_000000#32 = .ok (.cfc3 0xb 0x19) ∧
    decode 0b010011_1_1010111000011110101110010#32 = .ok (.cop3 0x15c3d72) ∧
    decode 0b010011_01000_00000_1000111100011101#32 = .ok (.bc3f 0x8f1d) ∧
    decode 0b010011_01000_00001_1000111100011101#32 = .ok (.bc3t 0x8f1d) ∧
    decode 0b010011_01000_00010_1000111100011101#32 = .ok (.bc3fl 0x8f1d) ∧
    decode 0b010011_01000_00011_1000111100011101#32 = .ok (.bc3tl 0x8f1d) := by
  decide

theorem test_decode_cp0_cache :
    decode 0b010000_00000_01011_01101_00000_000000#32 = .ok (.mfc0 0xb .cause) ∧
    decode 0b010000_00100_01011_01101_00000_000000#32 = .ok (.mtc0 0xb .cause) ∧
    decode 0b010000_10000_00000_00000_00000_011000#32 = .ok .eret ∧
    decode 0b101111_10110_11010_1000111100011101#32 = .ok (.cache 0x16 .hitWritebackD 0x8f1d) := by
  decide

theorem test_decode_cp0_registers :
    [8, 9, 11, 12, 13, 14, 15, 16, 25, 28, 29, 30].map cp0Reg = [.badVAddr, .count, .compare, .status, .cause, .epc,
      .prId, .config, .ebase, .tagLo, .tagHi, .errorEPC] ∧ cp0Reg 10 = .reserved 10 := by
  decide

theorem test_decode_cache_codes :
    [4, 6, 8, 10, 11, 20, 22, 24, 25, 26, 27, 28, 30, 31].map cacheOp = [.indexInvalidateI, .indexUnlockI,
      .hitInvalidateI, .fillI, .fillLockI, .indexWritebackInvalidateD, .indexUnlockD, .createDirtyD, .hitInvalidateD,
      .hitWritebackD, .hitWritebackInvalidateD, .createDirtyLockD, .fillD, .fillLockD] ∧ cacheOp 29 = .blank 29 := by
  decide

/-- V-ENC-19 to V-ENC-28: words that no row matches. -/
theorem test_decode_refuses :
    decode 0x00A62060#32 = .error .blankField ∧ decode 0x0000004F#32 = .error .blankField ∧
    decode 0x00000034#32 = .error .specialFunc ∧ decode 0x04140007#32 = .error .regimmCode ∧
    decode 0x70A62002#32 = .error .majorOpcode ∧ decode 0xDC820000#32 = .error .majorOpcode ∧
    decode 0x42000019#32 = .error .cop0Word ∧ decode 0x40426000#32 = .error .cop0Word ∧
    decode 0x7C0520A4#32 = .error .special3Code ∧ decodeTableWord 32 0x00852086 = none := by
  decide

/-! ## One instruction on a small state -/

/-- V-LS-1. -/
theorem test_lb :
    runs 0x80820003#32 (mem [(4, 0x88001000)]) (fun t => t.reg 2 == 0xFFFFFFB3#32 && nextPc t) = true := by
  decide

/-- V-LS-2. -/
theorem test_lbu :
    runs 0x90820003#32 (mem [(4, 0x88001000)]) (fun t => t.reg 2 == 0x000000B3#32) = true := by
  decide

/-- V-LS-3. -/
theorem test_lh :
    runs 0x84820004#32 (mem [(4, 0x88001000)]) (fun t => t.reg 2 == 0xFFFFD5C4#32) = true := by
  decide

/-- V-LS-5. -/
theorem test_lh_misaligned :
    runs 0x84820001#32 (mem [(4, 0x88001000), (2, 0x55555555)]) (fun t => took 4 t && t.cp0.badVAddr == 0x88001001#32 && t.reg 2 == 0x55555555#32) = true := by
  decide

/-- V-LS-4. -/
theorem test_lhu :
    runs 0x94820000#32 (mem [(4, 0x88001000)]) (fun t => t.reg 2 == 0x00009180#32) = true := by
  decide

/-- V-LS-19. -/
theorem test_lw :
    runs 0x8C840004#32 (mem [(4, 0x88001000)]) (fun t => t.reg 4 == 0xF7E6D5C4#32) = true := by
  decide

/-- V-LS-23. -/
theorem test_lw_user_kseg0 :
    runs 0x8C820000#32 (status 0x10 (mem [(4, 0x88001000)])) (fun t => t.cp0.badVAddr == 0x88001000#32 && t.cp0.cause.excCode == 4 && t.cp0.status.toWord == 0x12#32) = true := by
  decide

/-- V-LS-8b. -/
theorem test_lwl :
    runs 0x88820001#32 (mem [(4, 0x88001000), (2, 0x11223344)]) (fun t => t.reg 2 == 0x91803344#32) = true := by
  decide

/-- V-LS-10c. -/
theorem test_lwr :
    runs 0x98820002#32 (mem [(4, 0x88001000), (2, 0x11223344)]) (fun t => t.reg 2 == 0x1122B3A2#32) = true := by
  decide

/-- V-LS-26. -/
theorem test_lwl_kseg0_from_user :
    runs 0x88820002#32 (status 0x10 (mem [(4, 0x80000000)])) (fun t => t.cp0.badVAddr == 0x80000002#32 && t.cp0.cause.excCode == 4) = true := by
  decide

/-- V-LS-27. -/
theorem test_ll :
    runs 0xC0820004#32 (mem [(4, 0x88001000)]) (fun t => t.reg 2 == 0xF7E6D5C4#32 && t.llBit) = true := by
  decide

/-- V-LS-14. -/
theorem test_sb :
    runs 0xA0820005#32 (mem [(4, 0x88001000), (2, 0x12345678)]) (fun t => bytes t == [0x80, 0x91, 0xA2, 0xB3, 0xC4, 0x78, 0xE6, 0xF7]) = true := by
  decide

/-- V-LS-15. -/
theorem test_sh :
    runs 0xA4820006#32 (mem [(4, 0x88001000), (2, 0x12345678)]) (fun t => bytes t == [0x80, 0x91, 0xA2, 0xB3, 0xC4, 0xD5, 0x78, 0x56]) = true := by
  decide

/-- V-LS-17. -/
theorem test_sh_misaligned :
    runs 0xA4820001#32 (mem [(4, 0x88001000)]) (fun t => took 5 t && t.cp0.badVAddr == 0x88001001#32 && bytes t == bytes (mem [])) = true := by
  decide

/-- V-LS-16. -/
theorem test_sw :
    runs 0xAC820000#32 (mem [(4, 0x88001000), (2, 0x12345678)]) (fun t => bytes t == [0x78, 0x56, 0x34, 0x12, 0xC4, 0xD5, 0xE6, 0xF7]) = true := by
  decide

/-- V-LS-11b. -/
theorem test_swl :
    runs 0xA8820001#32 (mem [(4, 0x88001000), (2, 0x0A0B0C0D)]) (fun t => (bytes t).take 4 == [0x0B, 0x0A, 0xA2, 0xB3]) = true := by
  decide

/-- V-LS-12b. -/
theorem test_swr :
    runs 0xB8820001#32 (mem [(4, 0x88001000), (2, 0x0A0B0C0D)]) (fun t => (bytes t).take 4 == [0x80, 0x0D, 0x0C, 0x0B]) = true := by
  decide

/-- V-LS-28. -/
theorem test_sc :
    runs 0xE0820004#32 ({ mem [(4, 0x88001000), (2, 0xCAFEF00D)] with llBit := true }) (fun t => t.reg 2 == 1#32 && (bytes t).drop 4 == [0x0D, 0xF0, 0xFE, 0xCA]) = true := by
  decide

/-- V-LS-29. -/
theorem test_sc_no_link :
    runs 0xE0820004#32 (mem [(4, 0x88001000), (2, 0xCAFEF00D)]) (fun t => t.reg 2 == 0#32 && bytes t == bytes (mem [])) = true := by
  decide

/-- V-ALU-10. -/
theorem test_addi :
    runs 0x20A48000#32 (regs [(5, 0x80000000), (4, 0x55555555)]) (fun t => took 12 t && t.reg 4 == 0x55555555#32) = true := by
  decide

/-- V-ALU-11. -/
theorem test_addi_negative :
    runs 0x20A4FFFF#32 (regs [(5, 0x80000001)]) (fun t => t.reg 4 == 0x80000000#32 && nextPc t) = true := by
  decide

/-- V-ALU-13. -/
theorem test_addiu :
    runs 0x24A47FFF#32 (regs [(5, 0x7FFFFFFF)]) (fun t => t.reg 4 == 0x80007FFE#32) = true := by
  decide

/-- V-ALU-22. -/
theorem test_slti :
    runs 0x28A4FFFF#32 (regs [(5, 0xFFFFFFFE)]) (fun t => t.reg 4 == 1#32) = true := by
  decide

/-- V-ALU-24. -/
theorem test_sltiu :
    runs 0x2CA4FFFF#32 (regs [(5, 0xFFFFFFFF), (4, 7)]) (fun t => t.reg 4 == 0#32) = true := by
  decide

/-- V-ALU-26. -/
theorem test_andi :
    runs 0x30A4FFFF#32 (regs [(5, 0x12345678)]) (fun t => t.reg 4 == 0x00005678#32) = true := by
  decide

/-- V-ALU-27. -/
theorem test_ori :
    runs 0x34A48000#32 (regs [(5, 0x12340000)]) (fun t => t.reg 4 == 0x12348000#32) = true := by
  decide

/-- V-ALU-28. -/
theorem test_xori :
    runs 0x38A4FFFF#32 (regs [(5, 0xFFFFFFFF)]) (fun t => t.reg 4 == 0xFFFF0000#32) = true := by
  decide

/-- V-ALU-29. -/
theorem test_lui :
    runs 0x3C048000#32 (regs [(4, 0x55555555)]) (fun t => t.reg 4 == 0x80000000#32) = true := by
  decide

/-- V-ALU-3. -/
theorem test_add :
    runs 0x00A62020#32 (regs [(5, 0x7FFFFFFF), (6, 0x80000000)]) (fun t => t.reg 4 == 0xFFFFFFFF#32) = true := by
  decide

/-- V-ALU-6. -/
theorem test_add_overflow :
    runs 0x00842020#32 (regs [(4, 0x40000000)]) (fun t => took 12 t && t.reg 4 == 0x40000000#32) = true := by
  decide

/-- V-ALU-8. -/
theorem test_addu :
    runs 0x00A62021#32 (regs [(5, 0xFFFFFFFF), (6, 1), (4, 7)]) (fun t => t.reg 4 == 0#32) = true := by
  decide

/-- V-ALU-17. -/
theorem test_sub :
    runs 0x00A62022#32 (regs [(5, 0x80000000), (6, 0x80000000), (4, 7)]) (fun t => t.reg 4 == 0#32) = true := by
  decide

/-- V-ALU-15. -/
theorem test_sub_overflow :
    runs 0x00A62022#32 (regs [(6, 0x80000000), (4, 0x55555555)]) (fun t => took 12 t && t.reg 4 == 0x55555555#32) = true := by
  decide

/-- V-ALU-18. -/
theorem test_subu :
    runs 0x00A62023#32 (regs [(6, 1)]) (fun t => t.reg 4 == 0xFFFFFFFF#32) = true := by
  decide

/-- V-ALU-19. -/
theorem test_slt :
    runs 0x00A6202A#32 (regs [(5, 0x80000000), (6, 0x7FFFFFFF)]) (fun t => t.reg 4 == 1#32) = true := by
  decide

/-- V-ALU-20. -/
theorem test_sltu :
    runs 0x00A6202B#32 (regs [(5, 0x80000000), (6, 0x7FFFFFFF), (4, 7)]) (fun t => t.reg 4 == 0#32) = true := by
  decide

/-- V-ALU-30. -/
theorem test_and :
    runs 0x00A62024#32 (regs [(5, 0xF0F0F0F0), (6, 0x3C3C3C3C)]) (fun t => t.reg 4 == 0x30303030#32) = true := by
  decide

/-- V-ALU-31. -/
theorem test_or :
    runs 0x00A62025#32 (regs [(5, 0xF0F0F0F0), (6, 0x3C3C3C3C)]) (fun t => t.reg 4 == 0xFCFCFCFC#32) = true := by
  decide

/-- V-ALU-35. -/
theorem test_or_r0 :
    runs 0x00A60025#32 (regs [(5, 1), (6, 2)]) (fun t => t.reg 0 == 0#32 && t.regs[0] == 0#32) = true := by
  decide

/-- V-ALU-32. -/
theorem test_xor :
    runs 0x00A62026#32 (regs [(5, 0xF0F0F0F0), (6, 0x3C3C3C3C)]) (fun t => t.reg 4 == 0xCCCCCCCC#32) = true := by
  decide

/-- V-ALU-33. -/
theorem test_nor :
    runs 0x00A62027#32 (regs [(5, 0xF0F0F0F0), (6, 0x3C3C3C3C)]) (fun t => t.reg 4 == 0x03030303#32) = true := by
  decide

/-- V-SH-2. -/
theorem test_sll :
    runs 0x000527C0#32 (regs [(5, 0x80000001)]) (fun t => t.reg 4 == 0x80000000#32) = true := by
  decide

/-- V-SH-4. -/
theorem test_srl :
    runs 0x00052102#32 (regs [(5, 0x80000001)]) (fun t => t.reg 4 == 0x08000000#32) = true := by
  decide

/-- V-SH-5. -/
theorem test_sra :
    runs 0x00052103#32 (regs [(5, 0x80000001)]) (fun t => t.reg 4 == 0xF8000000#32) = true := by
  decide

/-- V-SH-8. -/
theorem test_sllv :
    runs 0x00C52004#32 (regs [(5, 1), (6, 0x20)]) (fun t => t.reg 4 == 1#32) = true := by
  decide

/-- V-SH-10. -/
theorem test_srlv :
    runs 0x00C52006#32 (regs [(5, 0x80000000), (6, 0x21)]) (fun t => t.reg 4 == 0x40000000#32) = true := by
  decide

/-- V-SH-11. -/
theorem test_srav :
    runs 0x00C52007#32 (regs [(5, 0x80000000), (6, 0x1F)]) (fun t => t.reg 4 == 0xFFFFFFFF#32) = true := by
  decide

/-- V-SH-14. -/
theorem test_rotr :
    runs 0x002527C2#32 (regs [(5, 0x80000000)]) (fun t => t.reg 4 == 1#32) = true := by
  decide

/-- V-SH-15. -/
theorem test_rotrv :
    runs 0x00C52046#32 (regs [(5, 0x12345678), (6, 0x24)]) (fun t => t.reg 4 == 0x81234567#32) = true := by
  decide

/-- V-MD-5. -/
theorem test_mult :
    runs 0x00850018#32 (regs [(4, 0xFFFFFFFE), (5, 3)]) (fun t => t.hi == 0xFFFFFFFF#32 && t.lo == 0xFFFFFFFA#32) = true := by
  decide

/-- V-MD-6. -/
theorem test_multu :
    runs 0x00850019#32 (regs [(4, 0xFFFFFFFE), (5, 3)]) (fun t => t.hi == 2#32 && t.lo == 0xFFFFFFFA#32) = true := by
  decide

/-- V-MD-9. -/
theorem test_div :
    runs 0x0085001A#32 (regs [(4, 0xFFFFFFF9), (5, 2)]) (fun t => t.hi == 0xFFFFFFFF#32 && t.lo == 0xFFFFFFFD#32) = true := by
  decide

/-- V-MD-13. -/
theorem test_div_by_zero :
    runs 0x0085001A#32 (regs [(4, 5)]) (fun t => nextPc t && t.reg 4 == 5#32) = true := by
  decide

/-- V-MD-15. -/
theorem test_divu :
    runs 0x0085001B#32 (regs [(4, 0xFFFFFFFF), (5, 2)]) (fun t => t.hi == 1#32 && t.lo == 0x7FFFFFFF#32) = true := by
  decide

/-- V-MD-19. -/
theorem test_madd :
    runs 0x0085001C#32 (hiLo 0x7FFFFFFF 0xFFFFFFFF (regs [(4, 0x7FFFFFFF), (5, 0x7FFFFFFF)])) (fun t => t.hi == 0xBFFFFFFF#32 && t.lo == 0#32) = true := by
  decide

/-- V-MD-20. -/
theorem test_maddu :
    runs 0x0085001D#32 (hiLo 0xFFFFFFFF 0xFFFFFFFF (regs [(4, 0xFFFFFFFF), (5, 0xFFFFFFFF)])) (fun t => t.hi == 0xFFFFFFFE#32 && t.lo == 0#32) = true := by
  decide

/-- V-MD-21. -/
theorem test_msub :
    runs 0x0085002E#32 (hiLo 0 10 (regs [(4, 3), (5, 4)])) (fun t => t.hi == 0xFFFFFFFF#32 && t.lo == 0xFFFFFFFE#32) = true := by
  decide

/-- V-MD-23. -/
theorem test_msubu :
    runs 0x0085002F#32 (hiLo 0 0 (regs [(4, 0xFFFFFFFF), (5, 0xFFFFFFFF)])) (fun t => t.hi == 1#32 && t.lo == 0xFFFFFFFF#32) = true := by
  decide

/-- V-MD-24. -/
theorem test_mthi :
    runs 0x00800011#32 (hiLo 1 2 (regs [(4, 0xDEADBEEF)])) (fun t => t.hi == 0xDEADBEEF#32 && t.lo == 2#32) = true := by
  decide

/-- V-MD-25. -/
theorem test_mtlo :
    runs 0x00800013#32 (hiLo 1 2 (regs [(4, 0xDEADBEEF)])) (fun t => t.hi == 1#32 && t.lo == 0xDEADBEEF#32) = true := by
  decide

/-- V-MD-26. -/
theorem test_mfhi :
    runs 0x00002010#32 (hiLo 0x11111111 0x22222222 (regs [])) (fun t => t.reg 4 == 0x11111111#32) = true := by
  decide

/-- V-MD-27. -/
theorem test_mflo :
    runs 0x00002012#32 (hiLo 0x11111111 0x22222222 (regs [])) (fun t => t.reg 4 == 0x22222222#32) = true := by
  decide

/-- V-EXT-1. -/
theorem test_max :
    runs 0x00A6202C#32 (regs [(5, 0x80000000), (6, 0x7FFFFFFF)]) (fun t => t.reg 4 == 0x7FFFFFFF#32) = true := by
  decide

/-- V-EXT-2. -/
theorem test_min :
    runs 0x00A6202D#32 (regs [(5, 0x80000000), (6, 0x7FFFFFFF)]) (fun t => t.reg 4 == 0x80000000#32) = true := by
  decide

/-- V-EXT-7. -/
theorem test_ext :
    runs 0x7CA45A00#32 (regs [(5, 0x12345678), (4, 0xFFFFFFFF)]) (fun t => t.reg 4 == 0x00000456#32) = true := by
  decide

/-- V-EXT-5. -/
theorem test_ext_whole :
    runs 0x7CA4F800#32 (regs [(5, 0x12345678)]) (fun t => t.reg 4 == 0x12345678#32) = true := by
  decide

/-- V-EXT-10. -/
theorem test_ins :
    runs 0x7CA49A04#32 (regs [(5, 0xFFFFFABC), (4, 0x11111111)]) (fun t => t.reg 4 == 0x111ABC11#32) = true := by
  decide

/-- V-EXT-9. -/
theorem test_ins_whole :
    runs 0x7CA4F804#32 (regs [(5, 0x12345678), (4, 0xFFFFFFFF)]) (fun t => t.reg 4 == 0x12345678#32) = true := by
  decide

/-- V-EXT-15. -/
theorem test_seb :
    runs 0x7C052420#32 (regs [(5, 0x12345680)]) (fun t => t.reg 4 == 0xFFFFFF80#32) = true := by
  decide

/-- V-EXT-17. -/
theorem test_seh :
    runs 0x7C052620#32 (regs [(5, 0x12348000)]) (fun t => t.reg 4 == 0xFFFF8000#32) = true := by
  decide

/-- V-EXT-18. -/
theorem test_wsbh :
    runs 0x7C0520A0#32 (regs [(5, 0x11223344)]) (fun t => t.reg 4 == 0x22114433#32) = true := by
  decide

/-- V-EXT-19. -/
theorem test_wsbw :
    runs 0x7C0520E0#32 (regs [(5, 0x11223344)]) (fun t => t.reg 4 == 0x44332211#32) = true := by
  decide

/-- V-EXT-21. -/
theorem test_bitrev :
    runs 0x7C052520#32 (regs [(5, 0xF0000001)]) (fun t => t.reg 4 == 0x8000000F#32) = true := by
  decide

/-- V-EXT-22. -/
theorem test_clz :
    runs 0x00A02016#32 (regs []) (fun t => t.reg 4 == 32#32) = true := by
  decide

/-- V-EXT-24. -/
theorem test_clz_low :
    runs 0x00A02016#32 (regs [(5, 1)]) (fun t => t.reg 4 == 31#32) = true := by
  decide

/-- V-EXT-25. -/
theorem test_clo :
    runs 0x00A02017#32 (regs [(5, 0xFFFFFFFF)]) (fun t => t.reg 4 == 32#32) = true := by
  decide

/-- V-EXT-27. -/
theorem test_clo_low :
    runs 0x00A02017#32 (regs [(5, 0xFFFFFFFE)]) (fun t => t.reg 4 == 31#32) = true := by
  decide

/-- V-EXT-28. -/
theorem test_movn :
    runs 0x00A6200B#32 (regs [(5, 0xAAAAAAAA), (6, 1), (4, 0x55555555)]) (fun t => t.reg 4 == 0xAAAAAAAA#32) = true := by
  decide

/-- V-EXT-29. -/
theorem test_movn_not :
    runs 0x00A6200B#32 (regs [(5, 0xAAAAAAAA), (4, 0x55555555)]) (fun t => t.reg 4 == 0x55555555#32) = true := by
  decide

/-- V-EXT-30. -/
theorem test_movz :
    runs 0x00A6200A#32 (regs [(5, 0xAAAAAAAA), (4, 0x55555555)]) (fun t => t.reg 4 == 0xAAAAAAAA#32) = true := by
  decide

/-- V-EXT-31. -/
theorem test_movz_not :
    runs 0x00A6200A#32 (regs [(5, 0xAAAAAAAA), (6, 0x80000000), (4, 0x55555555)]) (fun t => t.reg 4 == 0x55555555#32) = true := by
  decide

/-- V-BR-1. -/
theorem test_blez :
    runs 0x1880000F#32 (regs []) (fun t => slot 0x88000140 t) = true := by
  decide

/-- V-BR-2. -/
theorem test_bgtz :
    runs 0x1C80000F#32 (regs []) (fun t => slot 0x88000108 t) = true := by
  decide

/-- V-BR-3. -/
theorem test_bltz :
    runs 0x0480000F#32 (regs [(4, 0x80000000)]) (fun t => slot 0x88000140 t) = true := by
  decide

/-- V-BR-4. -/
theorem test_bgez :
    runs 0x0481000F#32 (regs [(4, 0xFFFFFFFF)]) (fun t => slot 0x88000108 t) = true := by
  decide

/-- V-BR-7. -/
theorem test_beq :
    runs 0x10858000#32 (regs [(4, 1), (5, 1)]) (fun t => slot 0x87FE0104 t) = true := by
  decide

/-- V-BR-6. -/
theorem test_bne :
    runs 0x14857FFF#32 (regs [(4, 1), (5, 2)]) (fun t => slot 0x88020100 t) = true := by
  decide

/-- V-BR-8. -/
theorem test_bgtzl :
    runs 0x5C80000F#32 (regs [(4, 0x80000000)]) (fun t => skipped t) = true := by
  decide

/-- V-BR-14. -/
theorem test_beql_not :
    runs 0x50850003#32 (regs [(4, 1), (5, 2)]) (fun t => skipped t) = true := by
  decide

/-- V-BR-15. -/
theorem test_beql :
    runs 0x50850003#32 (regs [(4, 1), (5, 1)]) (fun t => slot 0x88000110 t) = true := by
  decide

/-- V-BR-17. -/
theorem test_bgezal :
    runs 0x04110003#32 (regs []) (fun t => slot 0x88000110 t && t.reg 31 == 0x88000108#32) = true := by
  decide

/-- V-BR-18. -/
theorem test_bgezall_not :
    runs 0x04930003#32 (regs [(4, 0x80000000)]) (fun t => skipped t) = true := by
  decide

/-- V-EX-3. -/
theorem test_syscall_nested :
    runs 0x0000000C#32 ({ status 2 (regs []) with cp0 := { (status 2 (regs [])).cp0 with epc := 0x11111110, cause := { resetCp0.cause with bd := true } } }) (fun t => t.cp0.epc == 0x11111110#32 && t.cp0.cause.bd && t.cp0.cause.excCode == 8 && t.pc == 0x88000000#32) = true := by
  decide

/-- R341. -/
theorem test_brk :
    runs 0x000001CD#32 (regs []) (fun t => took 9 t) = true := by
  decide

/-- R342. -/
theorem test_sync :
    runs 0x0000000F#32 ({ regs [] with stores := [{ va := 0xA8001000#32, bytes := [0xDD, 0xCC] }] }) (fun t => t.mem.read 0x08001001 == 0xCC && t.stores == []) = true := by
  decide

/-- V-CP-1. -/
theorem test_mfc1_unusable :
    runs 0x44042800#32 (regs [(4, 0x55555555)]) (fun t => took 11 t && t.cp0.cause.ce == 1 && t.reg 4 == 0x55555555#32) = true := by
  decide

/-- V-CP-3. -/
theorem test_lwc3_unusable :
    runs 0xCC820004#32 (regs [(4, 0x88001000)]) (fun t => took 11 t && t.cp0.cause.ce == 3) = true := by
  decide

/-- V-CP-4, V-CP-12. -/
theorem test_lwc1_unusable :
    runs 0xC4820001#32 (regs [(4, 0x88001000)]) (fun t => took 11 t && t.cp0.cause.ce == 1 && t.cp0.badVAddr == 0#32) = true ∧
    runs 0xC4820002#32 (status 0x20000000 (mem [(4, 0x88001000)])) (fun t => t.cp0.cause.excCode == 4 && t.cp0.badVAddr == 0x88001002#32) = true := by
  decide

/-- V-CP-7. -/
theorem test_cop1_unmatched :
    runs 0x44200000#32 (regs []) (fun t => took 11 t && t.cp0.cause.ce == 1) = true := by
  decide

/-- V-CP-9, V-C0-12. -/
theorem test_mfc0_user_cu0 :
    runs 0x40026000#32 (status 0x10000010 (regs [])) (fun t => t.reg 2 == 0x10000010#32) = true ∧
    runs 0x40026000#32 (status 0x10 (regs [(2, 0x55555555)])) (fun t => t.reg 2 == 0x55555555#32 && t.cp0.cause.excCode == 11 && t.cp0.cause.ce == 0 && t.cp0.status.toWord == 0x12#32) = true := by
  decide

/-- V-CP-10. -/
theorem test_mtc1 :
    runs 0x44842800#32 (status 0x20000000 (regs [(4, 0x3F800000)])) (fun t => t.cpr .cp1 5 == 0x3F800000#32) = true := by
  decide

/-- V-CP-11. -/
theorem test_lwc1 :
    runs 0xC4820004#32 (status 0x20000000 (mem [(4, 0x88001000)])) (fun t => t.cpr .cp1 2 == 0xF7E6D5C4#32) = true := by
  decide

/-- V-CP-11. -/
theorem test_swc1 :
    runs 0xE4820000#32 (status 0x20000000 ((mem [(4, 0x88001000)]).setCpr .cp1 2 0xF7E6D5C4#32)) (fun t => (bytes t).take 4 == [0xC4, 0xD5, 0xE6, 0xF7]) = true := by
  decide

/-- R361. -/
theorem test_bc1t :
    runs 0x4501000F#32 (status 0x20000000 (fpuCond (regs []))) (fun t => slot 0x88000140 t) = true := by
  decide

/-- R363. -/
theorem test_bc1fl :
    runs 0x4502000F#32 (status 0x20000000 (fpuCond (regs []))) (fun t => skipped t) = true := by
  decide

/-- V-C0-1, V-C0-2, V-C0-13. -/
theorem test_mtc0_status :
    runs 0x40826000#32 (regs [(2, 0xFFFFFFFF)]) (fun t => t.cp0.status.toWord == 0xF250FF1F#32 && t.mode == some .kernel) = true ∧
    runs 0x40826800#32 (regs [(2, 0xFFFFFFFF)]) (fun t => t.causeWord == 0x00000300#32) = true ∧
    runs 0x40826000#32 (status 8 (regs [])) (fun t => t.cp0.cause.excCode == 11 && t.cp0.status.toWord == 0xA#32) = true := by
  decide

/-- V-C0-4, V-C0-5, V-C0-16. -/
theorem test_mtc0_ebase :
    runs 0x40824000#32 (regs [(2, 0xFFFFFFFF)]) (fun t => t.cp0.badVAddr == 0#32) = true ∧
    runs 0x4082C800#32 (regs [(2, 0x80001234)]) (fun t => t.cp0.ebase == 0x80001234#32) = true ∧
    runs 0x40825800#32 ({ regs [(2, 0x1000)] with cp0 := { resetCp0 with cause := { resetCp0.cause with timer := true } } }) (fun t => t.cp0.compare == 0x1000#32 && !t.cp0.cause.timer) = true := by
  decide

/-- V-C0-6. -/
theorem test_mfc0_cause :
    runs 0x40026800#32 ({ regs [] with cp0 := { resetCp0 with cause := { bd := true, ce := 1, timer := true, soft := 1, excCode := 11 } }, env := { quietEnvironment with intPins := 0b000100 } }) (fun t => t.reg 2 == 0x9000912C#32) = true := by
  decide

/-- V-C0-7. -/
theorem test_eret :
    runs 0x42000018#32 ({ status 0x13 (regs []) with llBit := true, cp0 := { (status 0x13 (regs [])).cp0 with epc := 0x08804004 } }) (fun t => t.pc == 0x08804004#32 && t.npc == 0x08804008#32 && t.cp0.status.toWord == 0x11#32 && !t.llBit && t.mode == some .user) = true := by
  decide

/-- V-C0-8. -/
theorem test_eret_erl :
    runs 0x42000018#32 ({ regs [] with cp0 := { resetCp0 with status := Status.ofWord 0x00400006, errorEPC := 0x88000200, epc := 0x88000300 } }) (fun t => t.pc == 0x88000200#32 && t.cp0.status.toWord == 0x00400002#32) = true := by
  decide

/-- V-CA-6, V-CA-10. -/
theorem test_cache_checks :
    runs 0xBC9A0000#32 (status 0x10000010 (regs [(4, 0x88001040)])) (fun t => t.cp0.cause.excCode == 4 && t.cp0.badVAddr == 0x88001040#32) = true ∧
    runs 0xBC880000#32 (regs [(4, 0xA8001040)]) (fun t => nextPc t) = true := by
  decide

/-- V-CA-14, V-CA-15, V-CA-11. -/
theorem test_cache_effects :
    runs 0xBC840000#32 (iway (regs [(4, 0x88001040)]) { lock := false, lru := false, a := lineOf 0x44000 (), b := lineOf 0x44001 () }) (fun t => !(t.iset 0x88001040#32).a.valid && (t.iset 0x88001040#32).b.valid) = true ∧
    runs 0xBC840000#32 (iway (regs [(4, 0x88001040)]) { lock := true, lru := false, a := emptyWay (), b := lineOf 0x44001 () }) (fun t => !(t.iset 0x88001040#32).b.valid && !(t.iset 0x88001040#32).lock) = true ∧
    runs 0xBC9F0000#32 (dway (regs [(4, 0x88001040)]) { lock := false, lru := true, a := emptyWay false, b := lineOf 0x44001 false }) (fun t => (t.dset 0x88001040#32).lock && (t.dset 0x88001040#32).lru && (t.dset 0x88001040#32).a.valid && (t.dset 0x88001040#32).a.tag == 0x44000) = true ∧
    runs 0xBC9A0000#32 (dway (regs [(4, 0x88001040)]) { lock := false, lru := true, a := lineOf 0x44000 true, b := emptyWay false }) (fun t => t.writeback == some { va := 0x88001040#32, data := Vector.replicate 64 0x5A } && (t.dset 0x88001040#32).a == lineOf 0x44000 false) = true := by
  decide

/-- R393: Fill with Lock (I) in a set whose Lock is 1 fills the way to which the LRU bit points, with both ways invalid. -/
theorem test_fill_lock_victim :
    runs 0xBC8B0000#32 (iway (regs [(4, 0x88001040)]) { lock := true, lru := true, a := emptyWay (), b := emptyWay () })
      (fun t => (t.iset 0x88001040#32).lock && (t.iset 0x88001040#32).lru && !(t.iset 0x88001040#32).a.valid &&
        (t.iset 0x88001040#32).b.valid && (t.iset 0x88001040#32).b.tag == 0x44000) = true ∧
    runs 0xBC8B0000#32 (iway (regs [(4, 0x88001040)]) { lock := true, lru := false, a := emptyWay (), b := emptyWay () })
      (fun t => (t.iset 0x88001040#32).a.valid && !(t.iset 0x88001040#32).b.valid) = true := by
  decide

/-- Table 6-2 (R420). -/
theorem test_exception_codes :
    [GeneralException.int, .adEL 0, .adES 0, .ibe, .dbe, .sys, .bp, .ri, .cpU 0, .ov, .fpe].map GeneralException.code =
      [0, 4, 5, 6, 7, 8, 9, 10, 11, 12, 15] := by decide

/-- V-BR-19. -/
theorem test_j :
    runs 0x08000040#32 ({ regs [] with pc := 0x8FFFFFFC, npc := 0x90000000 }) (fun t => t.pc == 0x90000000#32 && t.npc == 0x90000100#32 && t.inDelaySlot) = true := by
  decide

/-- V-BR-20. -/
theorem test_jal :
    runs 0x0E000080#32 (regs []) (fun t => slot 0x88000200 t && t.reg 31 == 0x88000108#32) = true := by
  decide

/-- V-BR-23. -/
theorem test_jr :
    runs 0x00800008#32 (regs [(4, 0x88000202)]) (fun t => slot 0x88000202 t) = true := by
  decide

/-- V-BR-21. -/
theorem test_jalr :
    runs 0x00802009#32 (regs [(4, 0x88000200)]) (fun t => slot 0x88000200 t && t.reg 4 == 0x88000108#32) = true := by
  decide

/-- V-SP-6. -/
theorem test_syscall :
    runs 0x0000000C#32 (status 0x10 (regs [])) (fun t => t.cp0.cause.excCode == 8 && t.cp0.status.toWord == 0x12#32 && t.mode == some .kernel) = true := by
  decide

/-! ## One step -/

/-- V-EX-4: the interrupt is taken in place of the instruction. -/
theorem test_step_interrupt :
    steps 0x24040001 { status 0x401 (regs []) with env := { quietEnvironment with intPins := 1 } }
      (fun t => t.reg 4 == 0#32 && t.cp0.epc == 0x88000100#32 && t.cp0.cause.excCode == 0 && t.pending == 4 &&
        t.cp0.status.toWord == 0x403#32 && t.pc == 0x88000000#32) = true := by
  decide

/-- V-EX-6: the instruction's own overflow outranks the interrupt. -/
theorem test_step_overflow_before_interrupt :
    steps 0x00A62020 { status 0x401 (regs [(5, 0x7FFFFFFF), (6, 1)]) with env := { quietEnvironment with intPins := 1 } }
      (fun t => t.reg 4 == 0#32 && t.cp0.cause.excCode == 12 && t.cp0.status.toWord == 0x403#32) = true := by
  decide

/-- V-EX-7: a misaligned fetch outranks the interrupt. -/
theorem test_step_misaligned_fetch :
    nextWith (step { status 0x401 (regs []) with pc := 0x88000102, env := { quietEnvironment with intPins := 1 } })
      (fun t => t.cp0.badVAddr == 0x88000102#32 && t.cp0.epc == 0x88000102#32 && t.cp0.cause.excCode == 4) = true := by
  decide

/-- V-BR-12: an overflow in a delay slot. -/
theorem test_step_exception_in_delay_slot :
    steps 0x00A62020 { regs [(5, 0x7FFFFFFF), (6, 1), (4, 0x55555555)] with
        pc := 0x88000104, npc := 0x88000110, inDelaySlot := true }
      (fun t => t.reg 4 == 0x55555555#32 && took 12 { t with cp0 := { t.cp0 with cause := { t.cp0.cause with bd := false } } }
        && t.cp0.cause.bd) = true := by
  decide

/-- V-EX-13 and V-EX-14: Count reaches, or passes, Compare. -/
theorem test_step_timer :
    steps 0 { regs [] with cp0 := { resetCp0 with count := 0, compare := 1 } }
      (fun t => t.cp0.count == 1#32 && t.cp0.cause.timer) = true ∧
    steps 0 { regs [] with cp0 := { resetCp0 with count := 0, compare := 1 }, env := { quietEnvironment with countExtra := 1 } }
      (fun t => t.cp0.count == 2#32 && t.cp0.cause.timer) = true ∧
    steps 0 { regs [] with cp0 := { resetCp0 with count := 0xFFFFFFFF, compare := 1 } }
      (fun t => t.cp0.count == 0#32 && !t.cp0.cause.timer) = true := by
  decide

/-- The input with which nothing happens, for the two below. -/
def quietInput : Input :=
  { xrst := false, xsrst := false, xnmi := false, intPins := 0, countExtra := 0, fillWayB := false, bus := [] }

/-- V-EX-16: an NMI at a delay slot. -/
theorem test_step_nmi :
    nextWith (step { status 0xFF01 (regs [(4, 7)]) with
        pc := 0x88000104, npc := 0x88000110, inDelaySlot := true
        env := { quietEnvironment with inputs := [{ quietInput with xnmi := true }] } })
      (fun t => t.cp0.errorEPC == 0x88000100#32 && t.cp0.status.toWord == 0x0050FF05#32 && t.pc == 0xBFC00000#32 &&
        t.reg 4 == 7#32 && !t.inDelaySlot) = true := by
  decide

/-- R126, R464: a transfer from the non-cached write buffer between two instructions, and a write by another bus master after
or before it. -/
theorem test_step_drain :
    nextWith (step { regs [] with
        stores := [{ va := 0xA8001000#32, bytes := [0xDD] }]
        env := { quietEnvironment with inputs := [{ quietInput with bus := [.store 0] }] } })
      (fun t => t.mem.read 0x08001000 == 0xDD && t.stores == [] && nextPc t) = true ∧
    nextWith (step { regs [] with
        stores := [{ va := 0xA8001000#32, bytes := [0xDD] }]
        env := { quietEnvironment with inputs := [{ quietInput with bus := [.store 0, .outside (0x08001000, 0x77)] }] } })
      (fun t => t.mem.read 0x08001000 == 0x77 && t.stores == [] && nextPc t) = true ∧
    nextWith (step { regs [] with
        stores := [{ va := 0xA8001000#32, bytes := [0xDD] }]
        env := { quietEnvironment with inputs := [{ quietInput with bus := [.outside (0x08001000, 0x77), .store 0] }] } })
      (fun t => t.mem.read 0x08001000 == 0xDD && t.stores == [] && nextPc t) = true := by
  decide

/-- R6, R53: a store that reaches ROM changes nothing. -/
theorem test_rom :
    runs 0x0000000F#32 (mapped .rom { regs [] with stores := [{ va := 0xB0001000#32, bytes := [0xDD] }] })
      (fun t => t.mem == [] && t.stores == []) = true := by
  decide

/-- V-EX-18: a software reset, of which only ERL, BEV, SR, ErrorEPC, the pc and the Valid bits are defined afterwards. -/
theorem test_softwareReset :
    (errorEntry .softwareReset start).cp0.errorEPC = 0x88000100#32 ∧
      (errorEntry .softwareReset start).cp0.status.erl = true ∧ (errorEntry .softwareReset start).cp0.status.bev = true ∧
      (errorEntry .softwareReset start).cp0.status.sr = true ∧ (errorEntry .softwareReset start).pc = 0xBFC00000#32 :=
  ⟨rfl, rfl, rfl, rfl, rfl⟩

/-- V-RST-1, V-RST-2: the first instruction after reset. -/
theorem test_step_first :
    steps 0x24020001 State.reset (fun t => t.reg 2 == 1#32 && t.pc == 0xBFC00004#32) = true ∧
    steps 0x40026000 State.reset (fun t => t.reg 2 &&& 0x0DFF00E4#32 == 0x00400004#32) = true := by
  decide

/-- V-C0-15: KSU = 11. -/
theorem test_step_reserved_mode : step (status 0x18 (regs [])) = .refused .reservedMode := by rfl

/-- V-C0-9: ERET too soon after an MTC0; V-BR-24: a branch in a delay slot; V-CA-1, V-CA-3: CACHE refusals; V-CP-8. -/
theorem test_refusals :
    runWord 0x42000018#32 { regs [] with last2 := .mtc0 } = .refused .eretAfterMtc0 ∧
    runWord 0x10000002#32 { regs [] with inDelaySlot := true } = .refused .transferInDelaySlot ∧
    runWord 0x42000018#32 { regs [] with inDelaySlot := true } = .refused .eretInDelaySlot ∧
    runWord 0xBC800000#32 (regs [(4, 0x88001040)]) = .refused .blankCacheCode ∧
    runWord 0xBC980000#32 (regs [(4, 0xA8001040)]) = .refused .cacheOpUncached ∧
    runWord 0x4E000000#32 (status 0x80000000 (regs [])) = .refused .cop3Absent := by
  exact ⟨rfl, rfl, rfl, rfl, rfl, rfl⟩

/-! ## Witnesses: for each statement with hypotheses, concrete states and operands that meet them, clause by clause -/

theorem next_of {r : Result} {p : State → Bool} (h : nextWith r p = true) : ∃ t, r = .next t ∧ p t = true := by
  cases r with
  | next t => exact ⟨t, rfl, h⟩
  | fault f => exact absurd h (by simp [nextWith])
  | refused x => exact absurd h (by simp [nextWith])

/-- An instruction completes without an exception. -/
theorem completes_of {r : Result} (h : nextWith r (fun t => !t.entered) = true) :
    ∃ t, r = .next t ∧ t.entered = false := by
  obtain ⟨t, ht, he⟩ := next_of h
  exact ⟨t, ht, by simpa using he⟩

/-- An instruction takes an exception. -/
theorem enters_of {r : Result} (h : nextWith r State.entered = true) : ∃ t, r = .next t ∧ t.entered = true :=
  next_of h

/-- A fetch succeeds with a word, in a state with a property. -/
theorem fetched_of {r : Access Word} {w : Word} {p : State → Bool}
    (h : (match r with | .ok v t => v == w && p t | .raise _ | .refuse _ => false) = true) :
    ∃ t, r = .ok w t ∧ p t = true := by
  cases r with
  | ok v t =>
    simp only [Bool.and_eq_true, beq_iff_eq] at h
    exact ⟨t, by rw [h.1], h.2⟩
  | raise e => exact absurd h (by simp)
  | refuse x => exact absurd h (by simp)

/-- The step's fetch gives a word that then runs to a next state with a property. -/
theorem fetched_and_run {s : State} {w : Word} {p : State → Bool}
    (h : (match fetch s with | .ok v t => v == w && nextWith (runWord w t) p | .raise _ | .refuse _ => false) = true) :
    ∃ t u, fetch s = .ok w t ∧ runWord w t = .next u ∧ p u = true := by
  obtain ⟨t, ht, h2⟩ := fetched_of (p := fun t => nextWith (runWord w t) p) h
  obtain ⟨u, hu, hp⟩ := next_of h2
  exact ⟨t, u, ht, hu, hp⟩

/-- The step's fetch gives a word that would then be refused. -/
theorem fetched_and_refused {s : State} {w : Word}
    (h : (match fetch s with
      | .ok v t => v == w && (match runWord w t with | .refused _ => true | .next _ | .fault _ => false)
      | .raise _ | .refuse _ => false) = true) :
    ∃ t x, fetch s = .ok w t ∧ runWord w t = .refused x := by
  obtain ⟨t, ht, h2⟩ :=
    fetched_of (p := fun t => match runWord w t with | .refused _ => true | .next _ | .fault _ => false) h
  cases hr : runWord w t with
  | refused x => exact ⟨t, x, ht, hr⟩
  | next u => rw [hr] at h2; cases h2
  | fault f => cases f

/-- A state in user mode at a user address. -/
def user : State := { status 0x10 (mem [(4, 0x08001000)]) with pc := 0x08000100, npc := 0x08000104 }

/-- A state in user mode with RE = 1. -/
def userReversed : State := { status 0x02000010 (mem [(4, 0x08001001)]) with pc := 0x08000100, npc := 0x08000104 }

/-- A state in supervisor mode. -/
def supervisor : State := { status 8 (mem [(4, 0xC8001000)]) with pc := 0xC8000100, npc := 0xC8000104 }

theorem witness_DecodeOfEncode :
    (Instr.cache 31 (.blank 29) 0xFFFF).wellFormed = true ∧ (Instr.mtc0 31 (.reserved 31)).wellFormed = true ∧
    (Instr.ins 31 31 0 31).wellFormed = true := by decide

theorem witness_EncodeOfDecode :
    decode 0x0BFFFFFF#32 = .ok (.j 0x3FFFFFF) ∧ decode 0xBFFFFFFF#32 = .ok (.cache 31 .fillLockD 0xFFFF) := by decide

theorem witness_StepRunsDecodedInstruction :
    (start.event = none ∧ start.begin.mode = some .kernel ∧ start.begin.fpeDue = false ∧
      start.begin.interruptCondition = false) ∧ (Instr.sll 0 0 0).changesCop ≠ some .cp1 ∧
    decode 0#32 = .ok (.sll 0 0 0) ∧
    ∃ t u, fetch start.begin = .ok 0#32 t ∧ runWord 0#32 t = .next u ∧ (!u.fpuRequests) = true :=
  ⟨by decide, by decide, by decide, fetched_and_run (by decide)⟩

/-- The FPU usable, with a COP1 operation next. -/
def fpuNext : State := (status 0x20000000 (regs [])).withFetchWord 32 0x46000000

/-- The clause for an operation that makes the request at itself: its hypotheses are met where the configuration's FPU answers
so. What the FPU answers is opaque (log entry 19), so no more than this can be shown. -/
theorem witness_StepRunsDecodedInstruction_fpe
    (h : (Config.copOperate .cp1 0 idleCop 0).ctl.excRequest = some 0) :
    (fpuNext.event = none ∧ fpuNext.begin.mode = some .kernel ∧ fpuNext.begin.fpeDue = false ∧
      fpuNext.begin.interruptCondition = false) ∧ decode 0x46000000#32 = .ok (.cop1 0) ∧
    ∃ u, exec (.cop1 0) fpuNext.begin = .next u ∧ u.raisesFpe fpuNext.begin = true :=
  ⟨by decide, by decide, _, rfl, by
    show ((Config.copOperate .cp1 0 idleCop 0).ctl.excRequest == some 0 && true && true) = true
    rw [h]; rfl⟩

theorem witness_UnmatchedWord :
    (decode 0x40426000#32 = .error .cop0Word ∧ fOp 0x40426000#32 = 0x10#6 ∧ user.cp0.status.cu.getLsbD 0 = false ∧
      user.mode = some .user ∧ supervisor.cp0.status.cu.getLsbD 0 = false ∧ supervisor.mode = some .supervisor) ∧
    start.cp0Usable ∧
    (decode 0x44200000#32 = .error .copCode ∧ fOp 0x44200000#32 = 0x11#6) ∧
    (decode 0x48200000#32 = .error .copCode ∧ fOp 0x48200000#32 = 0x12#6) ∧
    (decode 0x4C200000#32 = .error .copCode ∧ fOp 0x4C200000#32 = 0x13#6) ∧
    (decode 0xFFFFFFFF#32 = .error .majorOpcode ∧ fOp 0xFFFFFFFF#32 = 0x3F#6) :=
  ⟨by decide, .inr (by decide), by decide, by decide, by decide, by decide⟩

/-- A state with both buffers in use. -/
def buffered : State :=
  { mem [(4, 0x88001000), (2, 0x12345678)] with
    stores := [{ va := 0xA8001000#32, bytes := [0xDD, 0xCC] }, { va := 0xA8001003#32, bytes := [0xBB] }]
    writeback := some { va := 0x88001000#32, data := Vector.replicate 64 0x5A } }

theorem buffered_inv : buffered.Inv :=
  ⟨by decide, by decide, fun _ => by decide, by decide, by decide, fun w h => by cases h; decide⟩

theorem witness_StepKeepsInvariant :
    buffered.Inv ∧ (∃ t, step (buffered.withFetchWord 32 0x0000000F) = .next t) ∧
    (buffered.withFetchWord 32 0x0000000F).Inv := by
  refine ⟨buffered_inv, ?_, ⟨by decide, by decide, fun _ => by decide, by decide, by decide, fun w h => by cases h; decide⟩⟩
  obtain ⟨t, h, -⟩ := next_of (r := step (buffered.withFetchWord 32 0x0000000F)) (p := fun _ => true) (by decide)
  exact ⟨t, h⟩

theorem witness_OperatingMode :
    (status 0x04 start).cp0.status.erl = true ∧ (status 0x1A start).cp0.status.exl = true ∧
    start.cp0.status.ksu = 0b00#2 ∧
    (supervisor.cp0.status.erl = false ∧ supervisor.cp0.status.exl = false ∧ supervisor.cp0.status.ksu = 0b01#2) ∧
    (user.cp0.status.erl = false ∧ user.cp0.status.exl = false ∧ user.cp0.status.ksu = 0b10#2) ∧
    ((status 0x18 start).cp0.status.erl = false ∧ (status 0x18 start).cp0.status.exl = false ∧
      (status 0x18 start).cp0.status.ksu = 0b11#2 ∧ (status 0x18 start).event = none) := by decide

theorem witness_AddressMap :
    (user.mode = some .user ∧ aligned 1 0x7FFFFFFF#32 = true ∧ allowedAddress .user 0x7FFFFFFF#32 = true) ∧
    (aligned 4 0x80000000#32 = true ∧ allowedAddress .user 0x80000000#32 = false) ∧
    (supervisor.mode = some .supervisor ∧ allowedAddress .supervisor 0xC0000000#32 = true ∧
      allowedAddress .supervisor 0xDFFFFFFF#32 = true ∧ allowedAddress .supervisor 0xE0000000#32 = false ∧
      allowedAddress .supervisor 0xBFFFFFFC#32 = false) ∧
    (start.mode = some .kernel ∧ aligned 2 0xFFFFFFFE#32 = true ∧ allowedAddress .kernel 0xFFFFFFFE#32 = true) ∧
    (cachedAddress 0x3FFFFFFF#32 = true ∧ cachedAddress 0x40000000#32 = false ∧ cachedAddress 0x9FFFFFFF#32 = true ∧
      cachedAddress 0xA0000000#32 = false ∧ cachedAddress 0xC0000000#32 = true) := by decide

theorem witness_ByteOrder :
    userReversed.mode = some .user ∧ userReversed.cp0.status.re = true ∧
    (status 0x02000008 start).mode = some .supervisor ∧ (status 0x02000000 start).mode = some .kernel := by decide

theorem witness_OverflowOrResult :
    (0x7FFFFFFF#32).toInt + (0#32).toInt = 2147483647 ∧ (0x7FFFFFFF#32).toInt + (1#32).toInt = 2147483648 ∧
    (0x80000000#32).toInt + (0xFFFF#16).toInt = -2147483649 ∧ (0#32).toInt - (0x80000000#32).toInt = 2147483648 := by
  decide

theorem witness_ShiftResults : 31 = ((regs [(6, 0xFFFFFFFF)]).reg 6).toNat % 32 := by decide

theorem witness_DivideResults :
    ((regs [(4, 0x80000000), (5, 1)]).reg 5 ≠ 0 ∧
      ¬((regs [(4, 0x80000000), (5, 1)]).reg 4 = 0x80000000#32 ∧
        (regs [(4, 0x80000000), (5, 1)]).reg 5 = 0xFFFFFFFF#32)) ∧
    ((regs [(4, 0x80000000), (5, 0xFFFFFFFF)]).reg 4 = 0x80000000#32 ∧
      (regs [(4, 0x80000000), (5, 0xFFFFFFFF)]).reg 5 = 0xFFFFFFFF#32) ∧
    (regs [(4, 7)]).reg 5 = 0 := by decide

theorem witness_MultiplyDivideFrame :
    Instr.div 31 0 ∈ [.mult 31 0, .multu 31 0, .div 31 0, .divu 31 0, .madd 31 0, .maddu 31 0, .msub 31 0, .msubu 31 0] ∧
    exec (.add 5 6 4) (regs [(5, 0x7FFFFFFF), (6, 1)]) =
      .next (takeException .ov (regs [(5, 0x7FFFFFFF), (6, 1)])) := ⟨by decide, rfl⟩

theorem witness_SelectAndConditionalMoves : (regs [(6, 0x80000000)]).reg 6 ≠ 0 ∧ (regs []).reg 6 = 0 := by decide

theorem witness_BitFieldResults :
    (31#5).toNat + ((0#5).toNat + 1) ≤ 32 ∧ 32 < (31#5).toNat + ((1#5).toNat + 1) ∧ (31#5).toNat ≤ (31#5).toNat ∧
    (30#5).toNat < (31#5).toNat := by decide

theorem witness_JumpResults :
    start.inDelaySlot = false ∧
    0x8FFFFFFC#32 = BitVec.ofNat 32 ((start.pc + 4).toNat / 0x10000000 * 0x10000000 + (0x3FFFFFF#26).toNat * 4) := by
  decide

theorem witness_BranchResults :
    start.inDelaySlot = false ∧ (regs [(4, 1)]).reg 4 ≠ (regs [(4, 1)]).reg 5 ∧ (regs []).reg 4 = (regs []).reg 5 ∧
    ((regs []).reg 4).toInt ≤ 0 ∧ 0 < ((regs [(4, 1)]).reg 4).toInt ∧ ((regs [(4, 0xFFFFFFFF)]).reg 4).toInt < 0 := by
  decide

theorem witness_AndLinkResults :
    start.inDelaySlot = false ∧ 0x87FE0104#32 = BitVec.ofInt 32 (start.pc.toNat + 4 + 4 * (0x8000#16).toInt) ∧
    ((regs [(4, 0xFFFFFFFF)]).reg 4).toInt < 0 ∧ 0 ≤ ((regs []).reg 4).toInt := by decide

theorem witness_TransferFrame :
    (Instr.bgezall 31 0x8000).isTransfer = true ∧ start.inDelaySlot = false ∧
    ({ start with inDelaySlot := true } : State).inDelaySlot = true := by decide

theorem witness_SyncDrainsBuffers :
    buffered.Inv ∧ 0x08001004 ∈ buffered.inFlight ∧ 0x08001040 ∉ buffered.inFlight ∧
    (∃ es e fs, buffered.stores = es ++ e :: fs ∧ ∃ h : 1 < e.bytes.length, e.bytes[1] = 0xCC ∧
      buffered.writableAt (physical e.va + 1) = true ∧
      physical e.va + 1 ∉ fs.flatMap NcStore.physicalBytes) ∧
    (∃ w, buffered.writeback = some w ∧ buffered.writableAt (physical w.va + 63) = true ∧
      physical w.va + 63 ∉ buffered.stores.flatMap NcStore.physicalBytes) ∧
    (mapped .rom buffered).writableAt 0x1FFFFFFF = false :=
  ⟨buffered_inv, by decide, by decide,
    ⟨[], { va := 0xA8001000#32, bytes := [0xDD, 0xCC] }, [{ va := 0xA8001003#32, bytes := [0xBB] }], rfl, by decide,
      rfl, by decide, by decide⟩, ⟨_, rfl, by decide, by decide⟩, by decide⟩

theorem permitted_of {s : State} {va : Word} {n : Nat} {m : Mode} (ha : va.toNat % n = 0) (hm : s.mode = some m)
    (h : allowedAddress m va = true) : Permitted s va n := ⟨ha, m, hm, h⟩

/-- A state with every coprocessor usable, in user mode. -/
def copUser : State := status 0xF0000010 user

/-- Instruction cache set 65 with two valid ways, the older one hit by 0x88001040. -/
def twoLines : State :=
  iway (dway (mem [(4, 0x88001040)])
      { lock := true, lru := false, a := lineOf 0x44000 true, b := lineOf 0x44001 false })
    { lock := true, lru := true, a := lineOf 0x44000 (), b := lineOf 0x44001 () }

/-- The same sets with one valid way each. -/
def oneLine : State :=
  iway (dway (mem [(4, 0x88001040)])
      { lock := false, lru := true, a := lineOf 0x44000 false, b := emptyWay false })
    { lock := false, lru := true, a := lineOf 0x44000 (), b := emptyWay () }

theorem twoLines_permitted : Permitted twoLines 0x88001040#32 1 :=
  permitted_of (m := .kernel) (by decide) (by decide) (by decide)

theorem witness_LoadResults :
    (0x88001003#32 = (mem [(4, 0x88001000)]).effectiveAddress 4 3 ∧ Permitted (mem [(4, 0x88001000)]) 0x88001003#32 1 ∧
      (mem [(4, 0x88001000)]).loadFails 0x88001003#32 1 = false) ∧
    (0x08000FFE#32 = user.effectiveAddress 4 0xFFFE ∧ Permitted user 0x08000FFE#32 2 ∧
      user.loadFails 0x08000FFE#32 2 = false) ∧
    (0xA8001004#32 = (mem [(4, 0xA8001000)]).effectiveAddress 4 4 ∧ Permitted (mem [(4, 0xA8001000)]) 0xA8001004#32 4 ∧
      (mem [(4, 0xA8001000)]).loadFails 0xA8001004#32 4 = false ∧ cachedAddress 0xA8001004#32 = false) ∧
    ((Instr.lbu 4 2 3, 1) ∈ [(.lb 4 2 3, 1), (.lbu 4 2 3, 1), (.lh 4 2 3, 2), (.lhu 4 2 3, 2), (.lw 4 2 3, 4)] ∧
      0x88001043#32 = twoLines.effectiveAddress 4 3 ∧ Permitted twoLines 0x88001043#32 1 ∧
      twoLines.loadFails 0x88001043#32 1 = false ∧ cachedAddress 0x88001043#32 = true ∧
      (twoLines.dset 0x88001043#32).find (lineTag 0x88001043#32) = some .a) ∧
    (0x88005042#32 = twoLines.effectiveAddress 4 0x4002 ∧ Permitted twoLines 0x88005042#32 2 ∧
      twoLines.loadFails 0x88005042#32 2 = false ∧ cachedAddress 0x88005042#32 = true ∧
      (twoLines.dset 0x88005042#32).find (lineTag 0x88005042#32) = none) :=
  ⟨⟨by decide, permitted_of (m := .kernel) (by decide) (by decide) (by decide), by decide⟩, ⟨by decide, permitted_of (m := .user) (by decide) (by decide) (by decide), by decide⟩,
    ⟨by decide, permitted_of (m := .kernel) (by decide) (by decide) (by decide), by decide, by decide⟩,
    ⟨by decide, by decide, permitted_of (m := .kernel) (by decide) (by decide) (by decide), by decide, by decide, by decide⟩,
    ⟨by decide, permitted_of (m := .kernel) (by decide) (by decide) (by decide), by decide, by decide, by decide⟩⟩

/-- Whether the bytes that LWL and LWR take at an address meet a bus error. -/
def partsFail (s : State) (va : Word) : Bool × Bool :=
  (s.loadFails (leftPart s.bigEndian va).start (leftPart s.bigEndian va).count,
    s.loadFails (rightPart s.bigEndian va).start (rightPart s.bigEndian va).count)

/-- A bus that fails loads at the first byte of a word only. -/
def failsFirstByte : State :=
  { mem [(4, 0xA8001000)] with
    env := { quietEnvironment with
      map := [{ lo := 0x08001000, hi := 0x08001001, kind := .ram, fetchError := false, loadError := true
                storeError := false }] } }

theorem witness_UnalignedLoadResults :
    (0xA8001003#32 = (mem [(4, 0xA8001000)]).effectiveAddress 4 3 ∧ 3 = (0xA8001003#32).toNat % 4 ∧
      Permitted (mem [(4, 0xA8001000)]) 0xA8001003#32 1 ∧ partsFail (mem [(4, 0xA8001000)]) 0xA8001003#32 = (false, false) ∧
      (mem [(4, 0xA8001000)]).bigEndian = false) ∧
    (0xA8001003#32 = failsFirstByte.effectiveAddress 4 3 ∧ Permitted failsFirstByte 0xA8001003#32 1 ∧
      partsFail failsFirstByte 0xA8001003#32 = (true, false)) ∧
    (0x08001000#32 = userReversed.effectiveAddress 4 0xFFFF ∧ 0 = (0x08001000#32).toNat % 4 ∧
      Permitted userReversed 0x08001000#32 1 ∧ partsFail userReversed 0x08001000#32 = (false, false) ∧
      cachedAddress 0x08001000#32 = true ∧ userReversed.bigEndian = true ∧
      (userReversed.dset 0x08001000#32).find (lineTag 0x08001000#32) = none) ∧
    (0x88001043#32 = twoLines.effectiveAddress 4 3 ∧ 3 = (0x88001043#32).toNat % 4 ∧
      Permitted twoLines 0x88001043#32 1 ∧ partsFail twoLines 0x88001043#32 = (false, false) ∧
      cachedAddress 0x88001043#32 = true ∧
      (twoLines.dset 0x88001043#32).find (lineTag 0x88001043#32) = some .a) :=
  ⟨⟨by decide, by decide, permitted_of (m := .kernel) (by decide) (by decide) (by decide), by decide, by decide⟩,
    ⟨by decide, permitted_of (m := .kernel) (by decide) (by decide) (by decide), by decide⟩,
    ⟨by decide, by decide, permitted_of (m := .user) (by decide) (by decide) (by decide), by decide, by decide, by decide, by decide⟩,
    ⟨by decide, by decide, permitted_of (m := .kernel) (by decide) (by decide) (by decide), by decide, by decide, by decide⟩⟩

/-- The same buffers, with a non-cached address in r4. -/
def direct : State := { buffered with regs := (regs [(4, 0xA8001000), (2, 0x12345678)]).regs }

/-- A state whose non-cached write buffer is full. -/
def full : State := { direct with stores := List.replicate 16 { va := 0xA8001000#32, bytes := [0xDD] } }

theorem witness_StoreResults :
    (0x88001000#32 = (mem [(4, 0x88001000)]).effectiveAddress 4 0 ∧ Permitted (mem [(4, 0x88001000)]) 0x88001000#32 4 ∧
      Permitted (mem [(4, 0x88001000)]) 0x88001000#32 2 ∧ (mem [(4, 0x88001000)]).storeFails 0x88001000#32 = false) ∧
    (0x08000FFF#32 = user.effectiveAddress 4 0xFFFF ∧ Permitted user 0x08000FFF#32 1 ∧
      user.storeFails 0x08000FFF#32 = false) ∧
    ((Instr.sh 4 2 2, 2) ∈ [(.sb 4 2 2, 1), (.sh 4 2 2, 2), (.sw 4 2 2, 4)] ∧
      0x88001042#32 = twoLines.effectiveAddress 4 2 ∧ Permitted twoLines 0x88001042#32 2 ∧
      cachedAddress 0x88001042#32 = true ∧ twoLines.storeFails 0x88001042#32 = false ∧
      (twoLines.dset 0x88001042#32).find (lineTag 0x88001042#32) = some .a) ∧
    (0x88005043#32 = twoLines.effectiveAddress 4 0x4003 ∧ Permitted twoLines 0x88005043#32 1 ∧
      cachedAddress 0x88005043#32 = true ∧ twoLines.storeFails 0x88005043#32 = false ∧
      (twoLines.dset 0x88005043#32).find (lineTag 0x88005043#32) = none) ∧
    (0xA8001007#32 = direct.effectiveAddress 4 7 ∧ Permitted direct 0xA8001007#32 1 ∧
      direct.storeFails 0xA8001007#32 = false ∧ cachedAddress 0xA8001007#32 = false ∧ direct.stores.length < 16) ∧
    (0xA8001006#32 = full.effectiveAddress 4 6 ∧ Permitted full 0xA8001006#32 2 ∧
      full.storeFails 0xA8001006#32 = false ∧ cachedAddress 0xA8001006#32 = false ∧ full.stores.length = 16) :=
  ⟨⟨by decide, permitted_of (m := .kernel) (by decide) (by decide) (by decide), permitted_of (m := .kernel) (by decide) (by decide) (by decide), by decide⟩,
    ⟨by decide, permitted_of (m := .user) (by decide) (by decide) (by decide), by decide⟩,
    ⟨by decide, by decide, permitted_of (m := .kernel) (by decide) (by decide) (by decide), by decide, by decide, by decide⟩,
    ⟨by decide, permitted_of (m := .kernel) (by decide) (by decide) (by decide), by decide, by decide, by decide⟩,
    ⟨by decide, permitted_of (m := .kernel) (by decide) (by decide) (by decide), by decide, by decide, by decide⟩,
    ⟨by decide, permitted_of (m := .kernel) (by decide) (by decide) (by decide), by decide, by decide, by decide⟩⟩

theorem witness_UnalignedStoreResults :
    (0x88001003#32 = buffered.effectiveAddress 4 3 ∧ 3 = (0x88001003#32).toNat % 4 ∧
      Permitted buffered 0x88001003#32 1 ∧ buffered.storeFails 0x88001003#32 = false ∧ buffered.bigEndian = false ∧
      cachedAddress (wordAddress 0x88001003#32) = true ∧
      (buffered.dset 0x88001003#32).find (lineTag 0x88001003#32) = none) ∧
    (0x08001000#32 = userReversed.effectiveAddress 4 0xFFFF ∧ 0 = (0x08001000#32).toNat % 4 ∧
      Permitted userReversed 0x08001000#32 1 ∧ userReversed.storeFails 0x08001000#32 = false ∧
      userReversed.bigEndian = true) ∧
    (0x88001042#32 = twoLines.effectiveAddress 4 2 ∧ Permitted twoLines 0x88001042#32 1 ∧
      twoLines.storeFails 0x88001042#32 = false ∧
      (twoLines.dset (wordAddress 0x88001042#32)).find (lineTag (wordAddress 0x88001042#32)) = some .a) ∧
    (0xA8001007#32 = direct.effectiveAddress 4 7 ∧ Permitted direct 0xA8001007#32 1 ∧
      direct.storeFails 0xA8001007#32 = false ∧ cachedAddress 0xA8001007#32 = false ∧ direct.stores.length < 16) ∧
    (0xA8001004#32 = full.effectiveAddress 4 4 ∧ Permitted full 0xA8001004#32 1 ∧
      full.storeFails 0xA8001004#32 = false ∧ cachedAddress 0xA8001004#32 = false ∧ full.stores.length = 16) :=
  ⟨⟨by decide, by decide, permitted_of (m := .kernel) (by decide) (by decide) (by decide), by decide, by decide, by decide, by decide⟩,
    ⟨by decide, by decide, permitted_of (m := .user) (by decide) (by decide) (by decide), by decide, by decide⟩,
    ⟨by decide, permitted_of (m := .kernel) (by decide) (by decide) (by decide), by decide, by decide⟩,
    ⟨by decide, permitted_of (m := .kernel) (by decide) (by decide) (by decide), by decide, by decide, by decide⟩,
    ⟨by decide, permitted_of (m := .kernel) (by decide) (by decide) (by decide), by decide, by decide, by decide⟩⟩

theorem witness_LinkedPairResults :
    (0x88001004#32 = (mem [(4, 0x88001000)]).effectiveAddress 4 4 ∧ Permitted (mem [(4, 0x88001000)]) 0x88001004#32 4 ∧
      (mem [(4, 0x88001000)]).loadFails 0x88001004#32 4 = false ∧ (mem [(4, 0x88001000)]).llBit = false ∧
      ((mem [(4, 0x88001000)]).dset 0x88001004#32).find (lineTag 0x88001004#32) = none) ∧
    (({ mem [(4, 0x88001000)] with llBit := true } : State).llBit = true ∧
      ({ mem [(4, 0x88001000)] with llBit := true } : State).storeFails 0x88001004#32 = false) ∧
    (0x88001044#32 = twoLines.effectiveAddress 4 4 ∧ Permitted { twoLines with llBit := true } 0x88001044#32 4 ∧
      twoLines.loadFails 0x88001044#32 4 = false ∧ twoLines.storeFails 0x88001044#32 = false ∧
      (twoLines.dset 0x88001044#32).find (lineTag 0x88001044#32) = some .a) ∧
    (0xA8001004#32 = direct.effectiveAddress 4 4 ∧ Permitted { direct with llBit := true } 0xA8001004#32 4 ∧
      direct.loadFails 0xA8001004#32 4 = false ∧ direct.storeFails 0xA8001004#32 = false ∧
      cachedAddress 0xA8001004#32 = false ∧ direct.stores.length < 16) ∧
    (Permitted { full with llBit := true } 0xA8001004#32 4 ∧ full.storeFails 0xA8001004#32 = false ∧
      full.stores.length = 16) :=
  ⟨⟨by decide, permitted_of (m := .kernel) (by decide) (by decide) (by decide), by decide, by decide, by decide⟩, by decide,
    ⟨by decide, permitted_of (m := .kernel) (by decide) (by decide) (by decide), by decide, by decide, by decide⟩,
    ⟨by decide, permitted_of (m := .kernel) (by decide) (by decide) (by decide), by decide, by decide, by decide, by decide⟩, ⟨permitted_of (m := .kernel) (by decide) (by decide) (by decide), by decide, by decide⟩⟩

theorem witness_AccessExceptions :
    (0x88001001#32 = (mem [(4, 0x88001000)]).effectiveAddress 4 1 ∧ (mem [(4, 0x88001000)]).mode = some .kernel ∧
      (0x88001001#32).toNat % 2 = 1) ∧
    (0x88001002#32).toNat % 4 ≠ 0 ∧
    (user.mode = some .user ∧ allowedAddress .user 0x80000000#32 = false) ∧
    (Permitted (failing .load (mem [])) 0xA8001000#32 4 ∧ (failing .load (mem [])).loadFails 0xA8001000#32 4 = true ∧
      (failing .load (mem [])).loadFails 0xA8001000#32 2 = true) ∧
    (Permitted (failing .load (mem [])) 0xA8001003#32 1 ∧ (failing .load (mem [])).loadFails 0xA8001003#32 1 = true ∧
      (failing .load (mem [])).loadFails (leftPart false 0xA8001003#32).start (leftPart false 0xA8001003#32).count = true ∧
      (failing .load (mem [])).loadFails (rightPart false 0xA8001003#32).start (rightPart false 0xA8001003#32).count = true ∧
      (failing .load (mem [])).bigEndian = false) ∧
    (Permitted (failing .store (mem [])) 0x88001000#32 4 ∧ (failing .store (mem [])).storeFails 0x88001000#32 = true ∧
      ({ failing .store (mem []) with llBit := true } : State).llBit = true) ∧
    (copUser.cp0.status.cu.getLsbD 1 = true ∧ copUser.cp0.status.cu.getLsbD 2 = true) ∧
    (cachedAddress 0x9FFFFFFC#32 = true ∧ cachedAddress 0xBFFFFFFC#32 = false) :=
  ⟨by decide, by decide, by decide,
    ⟨permitted_of (m := .kernel) (by decide) (by decide) (by decide), by decide, by decide⟩,
    ⟨permitted_of (m := .kernel) (by decide) (by decide) (by decide), by decide, by decide, by decide, by decide⟩,
    ⟨permitted_of (m := .kernel) (by decide) (by decide) (by decide), by decide, by decide⟩, by decide, by decide⟩

theorem witness_LoadAfterStore :
    (9#5 : Reg) ≠ 0#5 ∧ ∃ t u, exec (.sw 4 2 4) buffered = .next t ∧ t.entered = false ∧
      exec (.lw 4 9 4) t = .next u ∧ u.entered = false := by
  refine ⟨by decide, ?_⟩
  obtain ⟨t, ht, hp⟩ := next_of (r := exec (.sw 4 2 4) buffered)
    (p := fun t => !t.entered && nextWith (exec (.lw 4 9 4) t) fun u => !u.entered) (by decide)
  simp only [Bool.and_eq_true, Bool.not_eq_true'] at hp
  obtain ⟨u, hu, he⟩ := completes_of hp.2
  exact ⟨t, u, ht, hp.1, hu, he⟩

theorem start_dset (l : List (Reg × Word)) (va : Word) : (mem l).dset va = emptySet false := by
  have h : ∀ l, (regs l).dcache = Vector.replicate 128 (emptySet false) := by
    intro l; induction l with
    | nil => rfl
    | cons p l ih => exact ih
  show ((regs l).dcache)[(setIndex va).toNat]'(setIndex va).isLt = _
  simp [h]

theorem start_settled (l : List (Reg × Word)) (hw : (mem l).writeback = none) (hr : (mem l).stores = []) :
    (mem l).Settled :=
  ⟨hw, by simp [hr], fun va => by simp [start_dset, emptySet, emptyWay],
    fun va w h => by cases w <;> simp [start_dset, emptySet, emptyWay, CacheSet.way] at h,
    fun va w h => by cases w <;> simp [start_dset, emptySet, emptyWay, CacheSet.way] at h⟩

theorem start_unaliased (l : List (Reg × Word)) (a : Word) : (mem l).Unaliased a :=
  fun va w h => by cases w <;> simp [start_dset, emptySet, emptyWay, CacheSet.way] at h

theorem witness_MemoryChangesOnlyFromBuffers :
    (∃ t, exec .sync buffered = .next t ∧ t.entered = false) ∧ 0x08001040 ∉ buffered.inFlight :=
  ⟨completes_of (by decide), by decide⟩

/-- Two instructions complete one after the other, the second at an address computed in between. -/
theorem pair_completes {p q : Instr} {s : State} {c : Reg} {off : Imm16} {x : Word}
    (h : nextWith (exec p s) (fun t => !t.entered && decide (x = t.effectiveAddress c off) &&
      nextWith (exec q t) fun u => !u.entered) = true) :
    ∃ t u, exec p s = .next t ∧ t.entered = false ∧ x = t.effectiveAddress c off ∧ exec q t = .next u ∧
      u.entered = false := by
  obtain ⟨t, ht, hp⟩ := next_of h
  simp only [Bool.and_eq_true, Bool.not_eq_true', decide_eq_true_eq] at hp
  obtain ⟨u, hu, he⟩ := completes_of hp.2
  exact ⟨t, u, ht, hp.1.1, hp.1.2, hu, he⟩

/-- A state with the line of 0x88001040 dirty in the data cache, and not yet written back. -/
def dirtyLine (l : List (Reg × Word)) : State :=
  dway (mem l) { lock := false, lru := true, a := lineOf 0x44000 true, b := emptyWay false }

theorem dirtyLine_dset (l : List (Reg × Word)) (va : Word) : (dirtyLine l).dset va =
    if setIndex va = 65#7 then { lock := false, lru := true, a := lineOf 0x44000 true, b := emptyWay false }
    else emptySet false := by
  rw [dirtyLine, dway, State.dset_setDset, start_dset]
  rfl

theorem dirtyLine_valid {l : List (Reg × Word)} {va : Word} {w : WaySel}
    (h : (((dirtyLine l).dset va).way w).valid = true) :
    setIndex va = 65#7 ∧ ((dirtyLine l).dset va).way w = lineOf 0x44000 true := by
  rw [dirtyLine_dset] at h ⊢
  split at h
  · next e => cases w <;> simp_all [CacheSet.way, emptyWay]
  · cases w <;> simp [CacheSet.way, emptySet, emptyWay] at h

theorem dirtyLine_settled (l : List (Reg × Word)) (hw : (mem l).writeback = none) (hr : (mem l).stores = [])
    (he : (mem l).env = quietEnvironment) : (dirtyLine l).Settled :=
  ⟨hw, by show (mem l).stores.length < 16; simp [hr],
    fun va => by rw [dirtyLine_dset]; split <;> rfl,
    fun va w h hd => (by rw [(dirtyLine_valid h).2] at hd; cases hd),
    fun va w h _ i _ => by show (((mem l).env.region _).kind).writable = true; rw [he]; rfl⟩

theorem dirtyLine_unaliased (l : List (Reg × Word)) (a : Word)
    (h : physicalLine a ≠ 0x08001040 ∨ lineAddress (lineTag a) (setIndex a) = 0x88001040#32) :
    (dirtyLine l).Unaliased a := by
  intro va w hv _ he
  obtain ⟨hi, hw⟩ := dirtyLine_valid hv
  rw [hw, hi] at he ⊢
  rcases h with h | h
  · exact absurd he.symm h
  · rw [h]; rfl

theorem witness_LoadStoreFrame :
    (Instr.sb 4 2 0xFFFF).isLoadOrStore = true ∧ (mem [(4, 0x88001000)]).Settled ∧
    (∃ t, exec (.sb 4 2 0xFFFF) (mem [(4, 0x88001000)]) = .next t ∧ t.entered = false) ∧
    (mem [(4, 0x88001000)]).Unaliased 0x88001000#32 ∧
    0x88000FFF#32 ∈ storedAddresses (.sb 4 2 0xFFFF) (mem [(4, 0x88001000)]) ∧
    0x88001000#32 ∉ storedAddresses (.sb 4 2 0xFFFF) (mem [(4, 0x88001000)]) ∧
    ((dirtyLine [(4, 0x88001040)]).Settled ∧ (dirtyLine [(4, 0x88001040)]).Unaliased 0x88001044#32 ∧
      (∃ t, exec (.sw 4 2 0) (dirtyLine [(4, 0x88001040)]) = .next t ∧ t.entered = false) ∧
      0x88001044#32 ∉ storedAddresses (.sw 4 2 0) (dirtyLine [(4, 0x88001040)])) :=
  ⟨by decide, start_settled _ rfl rfl, completes_of (by decide), start_unaliased _ _, by decide, by decide,
    dirtyLine_settled _ rfl rfl rfl, dirtyLine_unaliased _ _ (.inr (by decide)), completes_of (by decide), by decide⟩

/-- The address register of a pair is also its destination; the memory at 0x08001001 keeps it as it is. -/
def ownBase : State :=
  { regs [(4, 0x88001001)] with mem := Memory.writeBytes [] 0x08001000 [0x80, 0x01, 0x10, 0x00, 0xC4, 0xD5, 0xE6, 0xF7] }

theorem witness_UnalignedWordLoad :
    -- across a line, one of the two lines being dirty, in both orders
    ((dirtyLine [(4, 0x8800107E)]).bigEndian = false ∧
      0x8800107E#32 = (dirtyLine [(4, 0x8800107E)]).effectiveAddress 4 0 ∧
      0x8800107E#32 + 3 = (dirtyLine [(4, 0x8800107E)]).effectiveAddress 4 3 ∧
      (dirtyLine [(4, 0x8800107E)]).Settled ∧ (dirtyLine [(4, 0x8800107E)]).Unaliased (0x8800107E#32 + 3) ∧
      (dirtyLine [(4, 0x8800107E)]).Unaliased 0x8800107E#32 ∧
      (∃ t u, exec (.lwr 4 2 0) (dirtyLine [(4, 0x8800107E)]) = .next t ∧ t.entered = false ∧
        0x8800107E#32 + 3 = t.effectiveAddress 4 3 ∧ exec (.lwl 4 2 3) t = .next u ∧ u.entered = false) ∧
      (∃ t u, exec (.lwl 4 2 3) (dirtyLine [(4, 0x8800107E)]) = .next t ∧ t.entered = false ∧
        0x8800107E#32 = t.effectiveAddress 4 0 ∧ exec (.lwr 4 2 0) t = .next u ∧ u.entered = false)) ∧
    -- rt = base, within a line
    (ownBase.bigEndian = false ∧ 0x88001001#32 = ownBase.effectiveAddress 4 0 ∧ (0x88001001#32).toNat % 64 ≤ 60 ∧
      ∃ t u, exec (.lwr 4 4 0) ownBase = .next t ∧ t.entered = false ∧ 0x88001001#32 + 3 = t.effectiveAddress 4 3 ∧
        exec (.lwl 4 4 3) t = .next u ∧ u.entered = false) ∧
    -- big-endian, in both orders
    (userReversed.bigEndian = true ∧ 0x08001001#32 = userReversed.effectiveAddress 4 0 ∧
      0x08001001#32 + 3 = userReversed.effectiveAddress 4 3 ∧ (0x08001001#32).toNat % 64 ≤ 60 ∧
      (∃ t u, exec (.lwl 4 2 0) userReversed = .next t ∧ t.entered = false ∧ 0x08001001#32 + 3 = t.effectiveAddress 4 3 ∧
        exec (.lwr 4 2 3) t = .next u ∧ u.entered = false) ∧
      (∃ t u, exec (.lwr 4 2 3) userReversed = .next t ∧ t.entered = false ∧ 0x08001001#32 = t.effectiveAddress 4 0 ∧
        exec (.lwl 4 2 0) t = .next u ∧ u.entered = false)) ∧
    -- the wrap at the top of the address space
    ((mem [(4, 0xFFFFFFFE)]).bigEndian = false ∧ 0xFFFFFFFE#32 = (mem [(4, 0xFFFFFFFE)]).effectiveAddress 4 0 ∧
      (mem [(4, 0xFFFFFFFE)]).Settled ∧ (mem [(4, 0xFFFFFFFE)]).Unaliased (0xFFFFFFFE#32 + 3) ∧
      ∃ t u, exec (.lwr 4 2 0) (mem [(4, 0xFFFFFFFE)]) = .next t ∧ t.entered = false ∧
        0xFFFFFFFE#32 + 3 = t.effectiveAddress 4 3 ∧ exec (.lwl 4 2 3) t = .next u ∧ u.entered = false) ∧
    -- non-cached, across what would be a line
    ((mem [(4, 0xA800103E)]).bigEndian = false ∧ 0xA800103E#32 = (mem [(4, 0xA800103E)]).effectiveAddress 4 0 ∧
      cachedAddress 0xA800103E#32 = false ∧ cachedAddress (0xA800103E#32 + 3) = false ∧
      ∃ t u, exec (.lwr 4 0 0) (mem [(4, 0xA800103E)]) = .next t ∧ t.entered = false ∧
        0xA800103E#32 + 3 = t.effectiveAddress 4 3 ∧ exec (.lwl 4 0 3) t = .next u ∧ u.entered = false) :=
  ⟨⟨by decide, by decide, by decide, dirtyLine_settled _ rfl rfl rfl, dirtyLine_unaliased _ _ (.inl (by decide)),
      dirtyLine_unaliased _ _ (.inr (by decide)), pair_completes (by decide), pair_completes (by decide)⟩,
    ⟨by decide, by decide, by decide, pair_completes (by decide)⟩,
    ⟨by decide, by decide, by decide, by decide, pair_completes (by decide), pair_completes (by decide)⟩,
    ⟨by decide, by decide, start_settled _ rfl rfl, start_unaliased _ _, pair_completes (by decide)⟩,
    ⟨by decide, by decide, by decide, by decide, pair_completes (by decide)⟩⟩

theorem witness_CoprocessorMoves :
    (0x08001000#32 = copUser.effectiveAddress 4 0 ∧ copUser.cp0.status.cu.getLsbD 1 = true ∧
      copUser.cp0.status.cu.getLsbD 2 = true ∧ Permitted copUser 0x08001000#32 4 ∧
      copUser.loadFails 0x08001000#32 4 = false ∧ copUser.storeFails 0x08001000#32 = false ∧
      (copUser.dset 0x08001000#32).find (lineTag 0x08001000#32) = none) ∧
    (0x88001044#32 = twoLines.effectiveAddress 4 4 ∧ Permitted (status 0x60000000 twoLines) 0x88001044#32 4 ∧
      (status 0x60000000 twoLines).cp0.status.cu.getLsbD 1 = true ∧
      (status 0x60000000 twoLines).cp0.status.cu.getLsbD 2 = true ∧
      twoLines.loadFails 0x88001044#32 4 = false ∧ twoLines.storeFails 0x88001044#32 = false ∧
      (twoLines.dset 0x88001044#32).find (lineTag 0x88001044#32) = some .a) ∧
    (0xA8001004#32 = direct.effectiveAddress 4 4 ∧ Permitted (status 0x60000000 direct) 0xA8001004#32 4 ∧
      direct.loadFails 0xA8001004#32 4 = false ∧ direct.storeFails 0xA8001004#32 = false ∧
      cachedAddress 0xA8001004#32 = false ∧ direct.stores.length < 16) ∧
    (Permitted (status 0x60000000 full) 0xA8001004#32 4 ∧ full.storeFails 0xA8001004#32 = false ∧
      full.stores.length = 16) :=
  ⟨⟨by decide, by decide, by decide, permitted_of (m := .user) (by decide) (by decide) (by decide), by decide, by decide, by decide⟩,
    ⟨by decide, permitted_of (m := .kernel) (by decide) (by decide) (by decide), by decide, by decide, by decide, by decide, by decide⟩,
    ⟨by decide, permitted_of (m := .kernel) (by decide) (by decide) (by decide), by decide, by decide, by decide, by decide⟩, ⟨permitted_of (m := .kernel) (by decide) (by decide) (by decide), by decide, by decide⟩⟩

theorem witness_CoprocessorControl :
    copUser.cp0.status.cu.getLsbD 1 = true ∧ copUser.cp0.status.cu.getLsbD 2 = true := by decide

theorem witness_CoprocessorBranches :
    (copUser.cp0.status.cu.getLsbD 1 = true ∧ copUser.cp0.status.cu.getLsbD 2 = true ∧ copUser.inDelaySlot = false ∧
      copUser.last1 ≠ .fpuCond ∧ copUser.cop1.ctl.cond = false ∧ (fpuCond copUser).cop1.ctl.cond = true) ∧
    (({ copUser with last1 := .fpuCond } : State).last1 = .fpuCond ∧
      ({ copUser with inDelaySlot := true } : State).inDelaySlot = true) := by decide

theorem witness_CoprocessorUnusable :
    ((Instr.lwc3 0 31 0).copClass = some 3#2 ∧ start.cp0.status.cu.getLsbD (3#2).toNat = false) ∧
    ((Instr.bc1f 0).copClass = some 1#2 ∧ start.cp0.status.cu.getLsbD (1#2).toNat = false) ∧
    ((Instr.swc2 0 0 0).copClass = some 2#2 ∧ start.cp0.status.cu.getLsbD (2#2).toNat = false) ∧
    (Instr.eret.copClass = some 0#2 ∧ user.cp0.status.cu.getLsbD (0#2).toNat = false ∧ user.mode = some .user ∧
      supervisor.cp0.status.cu.getLsbD (0#2).toNat = false ∧ supervisor.mode = some .supervisor) ∧
    copUser.cp0.status.cu.getLsbD 3 = true := by decide

theorem witness_Mfc0Results : start.cp0Usable ∧ copUser.cp0Usable := ⟨.inr (by decide), .inl (by decide)⟩

theorem witness_Mtc0Results : start.cp0Usable ∧ copUser.cp0Usable := ⟨.inr (by decide), .inl (by decide)⟩

theorem witness_EretResult :
    start.cp0Usable ∧
    (start.inDelaySlot = false ∧ start.last1.isMtc0 = false ∧ start.last2.isMtc0 = false) ∧
    (start.cp0.status.erl = false ∧ (status 6 start).cp0.status.erl = true ∧ (status 6 start).last2.isMtc0 = false) ∧
    ({ start with inDelaySlot := true } : State).inDelaySlot = true ∧
    (({ start with last2 := .mtc0Timer } : State).last2.isMtc0 = true ∧
      ({ start with last1 := .mtc0 } : State).last1.isMtc0 = true) :=
  ⟨.inr (by decide), by decide, by decide, by decide, by decide⟩

theorem witness_CacheInvalidations :
    (0x88001040#32 = twoLines.effectiveAddress 4 0 ∧ twoLines.cp0Usable ∧ Permitted twoLines 0x88001040#32 1) ∧
    cachedAddress 0xA8001040#32 = false ∧
    (cachedAddress 0x88001040#32 = true ∧ (twoLines.iset 0x88001040#32).find (lineTag 0x88001040#32) = some .a ∧
      (twoLines.dset 0x88001040#32).find (lineTag 0x88001040#32) = some .a) ∧
    ((twoLines.iset 0x88001040#32).a.valid = true ∧ (twoLines.iset 0x88001040#32).b.valid = true ∧
      .b = (if (twoLines.iset 0x88001040#32).lru then WaySel.b else .a)) ∧
    (((oneLine.iset 0x88001040#32).way .a).valid = true ∧ ((oneLine.iset 0x88001040#32).way WaySel.a.other).valid = false) ∧
    ((mem []).iset 0x88001040#32).find (lineTag 0x88001040#32) = none ∧
    (((mem []).iset 0x88001040#32).a.valid = false ∧ ((mem []).iset 0x88001040#32).b.valid = false) :=
  ⟨⟨by decide, .inr (by decide), twoLines_permitted⟩, by decide, by decide, by decide, by decide, by decide, by decide⟩

theorem witness_CacheWritebacks :
    (0x88001040#32 = twoLines.effectiveAddress 4 0 ∧ twoLines.cp0Usable ∧ Permitted twoLines 0x88001040#32 1) ∧
    (cachedAddress 0x88001040#32 = true ∧ (twoLines.dset 0x88001040#32).find (lineTag 0x88001040#32) = some .a ∧
      ((twoLines.dset 0x88001040#32).way .a).dirty = true) ∧
    ((oneLine.dset 0x88001040#32).find (lineTag 0x88001040#32) = some .a ∧
      ((oneLine.dset 0x88001040#32).way .a).dirty = false) ∧
    ((twoLines.dset 0x88001040#32).a.valid = true ∧ (twoLines.dset 0x88001040#32).b.valid = true ∧
      .a = (if (twoLines.dset 0x88001040#32).lru then WaySel.b else .a)) ∧
    (((oneLine.dset 0x88001040#32).way .a).valid = true ∧ ((oneLine.dset 0x88001040#32).way WaySel.a.other).valid = false) ∧
    (((mem []).dset 0x88001040#32).a.valid = false ∧ ((mem []).dset 0x88001040#32).b.valid = false ∧
      ((mem []).dset 0x88001040#32).find (lineTag 0x88001040#32) = none) :=
  ⟨⟨by decide, .inr (by decide), twoLines_permitted⟩, by decide, by decide, by decide, by decide, by decide⟩

theorem witness_CacheFills :
    (0x88001040#32 = twoLines.effectiveAddress 4 0 ∧ twoLines.cp0Usable ∧ twoLines.mode = some .kernel) ∧
    (allowedAddress .kernel 0x88001040#32 = true ∧ cachedAddress 0x88001040#32 = true) ∧
    ((twoLines.iset 0x88001040#32).find (lineTag 0x88001040#32) ≠ none ∧
      (twoLines.dset 0x88001040#32).find (lineTag 0x88001040#32) ≠ none) ∧
    ((mem []).busError .load (physicalLine 0x88001040#32) 64 = false ∧
      ((mem []).iset 0x88001040#32).find (lineTag 0x88001040#32) = none ∧
      ((mem []).dset 0x88001040#32).find (lineTag 0x88001040#32) = none ∧
      (((mem []).dset 0x88001040#32).way .a).valid = false) ∧
    ((twoLines.dset 0x88005040#32).find (lineTag 0x88005040#32) = none ∧
      ((twoLines.dset 0x88005040#32).way .a).valid = true) ∧
    ((twoLines.iset 0x88005040#32).find (lineTag 0x88005040#32) = none ∧ (twoLines.iset 0x88005040#32).lock = true) ∧
    ((iway (mem []) { lock := true, lru := true, a := emptyWay (), b := emptyWay () }).iset 0x88001040#32 =
      { lock := true, lru := true, a := emptyWay (), b := emptyWay () }) ∧
    ((failing .load (mem [])).busError .load (physicalLine 0x88001040#32) 64 = true ∧
      ((failing .load (mem [])).iset 0x88001040#32).find (lineTag 0x88001040#32) = none ∧
      ((failing .load (mem [])).dset 0x88001040#32).find (lineTag 0x88001040#32) = none) ∧
    (copUser.cp0.status.cu.getLsbD 0 = true ∧ copUser.mode = some .user ∧ allowedAddress .user 0x80000000#32 = false) ∧
    (allowedAddress .kernel 0xA8001040#32 = true ∧ cachedAddress 0xA8001040#32 = false ∧
      CacheOp.fillI ∈ [.fillI, .fillLockI, .createDirtyD, .createDirtyLockD, .fillD, .fillLockD]) :=
  ⟨⟨by decide, .inr (by decide), by decide⟩, by decide, by decide, by decide, by decide, by decide,
    State.iset_setIset_same _ _ _, by decide, by decide, by decide⟩

theorem witness_GeneralExceptionEntry :
    (start.cp0.status.exl = false ∧ start.inDelaySlot = false ∧
      ({ start with inDelaySlot := true } : State).inDelaySlot = true ∧ (status 2 start).cp0.status.exl = true) ∧
    (∀ va, GeneralException.cpU 3 ≠ .adEL va ∧ GeneralException.cpU 3 ≠ .adES va) :=
  ⟨by decide, fun _ => ⟨nofun, nofun⟩⟩

theorem witness_ExceptionAndReturn : user.cp0.status.erl = false ∧ user.cp0.status.exl = false := by decide

/-- Interrupts enabled, the timer and INT[0] pending and not masked. -/
def interrupted : State :=
  { status 0x8401 (regs [(5, 0x7FFFFFFF), (6, 1)]) with env := { quietEnvironment with intPins := 1 } }

theorem witness_InterruptTaken :
    (interrupted.event = none ∧ interrupted.begin.mode = some .kernel ∧ interrupted.begin.fpeDue = false ∧
      interrupted.begin.interruptCondition = true) ∧
    (∃ t u, fetch interrupted.begin = .ok 0#32 t ∧ runWord 0#32 t = .next u ∧
      (!u.entered && !u.fpuRequests) = true) ∧
    (interrupted.withFetchWord 32 0x00A62020).begin.interruptCondition = true ∧
    (∃ t u, fetch (interrupted.withFetchWord 32 0x00A62020).begin = .ok 0x00A62020#32 t ∧
      runWord 0x00A62020#32 t = .next u ∧ u.entered = true) :=
  ⟨by decide, fetched_and_run (by decide), by decide, fetched_and_run (by decide)⟩

/-- The FPU requests an exception. -/
def fpuRequest : State :=
  { regs [(5, 0x7FFFFFFF), (6, 1)] with
    cop1 := { idleCop with ctl := { idleCop.ctl with excRequest := some 0 } } }

theorem witness_FpuExceptionTaken :
    (fpuRequest.event = none ∧ fpuRequest.begin.mode = some .kernel ∧
      fpuRequest.begin.cop1.ctl.excRequest = some 0 ∧ fpuRequest.begin.cp0.status.exl = false ∧
      fpuRequest.begin.cp0.status.erl = false) ∧
    (∃ t u, fetch fpuRequest.begin = .ok 0#32 t ∧ runWord 0#32 t = .next u ∧ (!u.entered) = true) ∧
    (∃ t u, fetch (fpuRequest.withFetchWord 32 0x00A62020).begin = .ok 0x00A62020#32 t ∧
      runWord 0x00A62020#32 t = .next u ∧ (u.entered && u.cp0.cause.excCode == 12) = true) ∧
    (∃ t u, fetch (fpuRequest.withFetchWord 32 0x0000000C).begin = .ok 0x0000000C#32 t ∧
      runWord 0x0000000C#32 t = .next u ∧ (u.entered && u.cp0.cause.excCode == 8) = true) ∧
    (∃ t x, fetch (fpuRequest.withFetchWord 32 0xBC800000).begin = .ok 0xBC800000#32 t ∧
      runWord 0xBC800000#32 t = .refused x) ∧
    (fpuRequest.env.inputs = [] ∧
      ({ idleCop.ctl with excRequest := some 1 } : CopControl).excRequest = some (0 + 1)) :=
  ⟨by decide, fetched_and_run (by decide), fetched_and_run (by decide), fetched_and_run (by decide), fetched_and_refused (by decide), by decide⟩

/-- The clause for an operation that makes the request at itself, as in witness_StepRunsDecodedInstruction_fpe. -/
theorem witness_FpuExceptionTaken_itself (h : (Config.copOperate .cp1 0 idleCop 0).ctl.excRequest = some 0) :
    (fpuNext.event = none ∧ fpuNext.begin.mode = some .kernel ∧ fpuNext.begin.cp0.status.exl = false ∧
      fpuNext.begin.cp0.status.erl = false ∧ fpuNext.begin.cop1.ctl.excRequest ≠ some 0) ∧
    (∃ t, fetch fpuNext.begin = .ok 0x46000000#32 t ∧ (t.cop1 == idleCop && t.freeCount == 0) = true) ∧
    ∃ u, runWord 0x46000000#32 fpuNext.begin = .next u ∧ u.cop1.ctl.excRequest = some 0 :=
  ⟨by decide, fetched_of (by decide), _, rfl, h⟩

/-- A state that fetches from a non-cached segment. -/
def nonCachedFetch : State := { start with pc := 0xA8000100, npc := 0xA8000104 }

/-- A state that fetches from a valid instruction cache line. -/
def cachedFetch : State := { twoLines with pc := 0x8800107C, npc := 0x88001080 }

theorem witness_InstructionFetch :
    (nonCachedFetch.mode = some .kernel ∧ allowedAddress .kernel nonCachedFetch.pc = true ∧
      nonCachedFetch.pc.toNat % 4 = 0 ∧ nonCachedFetch.bigEndian = false ∧ cachedAddress nonCachedFetch.pc = false ∧
      nonCachedFetch.busError .fetch (physical nonCachedFetch.pc) 4 = false) ∧
    (start.mode = some .kernel ∧ cachedAddress start.pc = true ∧ (start.iset start.pc).find (lineTag start.pc) = none ∧
      start.busError .fetch (physicalLine start.pc) 64 = false) ∧
    (((mapped .rom start).env.region 0x10000000).kind = .rom ∧ ((mapped .device start).env.region 0x1FFFFFFF).kind = .device ∧
      ((mapped .device start).env.region 0x20000000).kind = .ram) ∧
    (cachedFetch.mode = some .kernel ∧ cachedAddress cachedFetch.pc = true ∧
      (cachedFetch.iset cachedFetch.pc).find (lineTag cachedFetch.pc) = some .a) ∧
    (({ start with pc := 0x88000102 } : State).event = none ∧
      ({ start with pc := 0x88000102 } : State).begin.mode = some .kernel ∧
      ({ start with pc := 0x88000102 } : State).begin.pc.toNat % 4 ≠ 0) ∧
    (({ user with pc := 0x80000000 } : State).begin.mode = some .user ∧
      allowedAddress .user ({ user with pc := 0x80000000 } : State).begin.pc = false) ∧
    ((failing .fetch nonCachedFetch).begin.mode = some .kernel ∧
      (failing .fetch nonCachedFetch).begin.busError .fetch
        (physical (failing .fetch nonCachedFetch).begin.pc) 4 = true) ∧
    (cachedAddress (failing .fetch start).begin.pc = true ∧
      ((failing .fetch start).begin.iset (failing .fetch start).begin.pc).find
        (lineTag (failing .fetch start).begin.pc) = none ∧
      (failing .fetch start).begin.busError .fetch (physicalLine (failing .fetch start).begin.pc) 64 = true) := by decide

/-- A state at the end of an MTC0 to Count that wrote `c`, with Compare 8 and CountStep 1. -/
def counted (c : Word) : State := { start with last1 := .mtc0Timer, cp0 := { resetCp0 with count := c, compare := 8 } }

theorem witness_TimerAdvance :
    start.last1 ≠ .mtc0Timer ∧
    ((counted 6).cp0.count ≠ (counted 6).cp0.compare ∧
      (counted 6).cp0.count + BitVec.ofNat 32 (counted 6).countStep ≠ (counted 6).cp0.compare) ∧
    ((counted 8).last1 = .mtc0Timer ∧ (counted 8).cp0.count = (counted 8).cp0.compare ∧
      (counted 7).cp0.count + BitVec.ofNat 32 (counted 7).countStep = (counted 7).cp0.compare) := by decide

theorem witness_ErrorExceptionEntry :
    ({ start with env := { quietEnvironment with inputs := [{ quietInput with xrst := true, xnmi := true }] } } : State).event =
      some .hardwareReset ∧
    ({ start with env := { quietEnvironment with inputs := [{ quietInput with xsrst := true, xnmi := true }] } } : State).event =
      some .softwareReset ∧
    ({ start with env := { quietEnvironment with inputs := [{ quietInput with xnmi := true }] } } : State).event =
      some .nmi ∧
    ({ start with env := { quietEnvironment with inputs := [quietInput] } } : State).event = none ∧ start.env.inputs = [] ∧
    0x08001040 ∉ buffered.inFlight ∧ ErrorException.softwareReset ≠ .hardwareReset ∧ ErrorException.nmi ≠ .hardwareReset ∧
    ErrorException.softwareReset ≠ .nmi := by decide

theorem witness_OnlyDestinationChanges :
    (∃ t, exec (.lw 4 2 0) buffered = .next t ∧ t.entered = false) ∧
    (Instr.lw 4 2 0).destination ≠ some (4#5 : Reg) ∧ (Instr.lw 4 2 0).destination ≠ some (31#5 : Reg) :=
  ⟨completes_of (by decide), by decide, by decide⟩

theorem witness_OnlyTheirWritersChangeSpecialState :
    (∃ t, exec (.max 4 2 9) buffered = .next t ∧ t.entered = false) ∧ (Instr.max 4 2 9).writesHiLo = false ∧
    (Instr.max 4 2 9).changesCop ≠ some .cp1 ∧ (Instr.max 4 2 9).usesMemory = false ∧
    (∃ t, exec .eret { start with llBit := true } = .next t ∧ (!t.llBit && !t.entered) = true) ∧
    (∃ t, exec (.mtc0 2 .epc) buffered = .next t ∧ (t.cp0.epc != buffered.cp0.epc && !t.entered) = true) :=
  ⟨completes_of (by decide), by decide, by decide, by decide, next_of (by decide), next_of (by decide)⟩

theorem witness_UserModeCannotChangeCp0 :
    (user.cp0.status.cu.getLsbD 0 = false ∧ user.mode = some .user ∧ supervisor.mode = some .supervisor) ∧
    (∃ t, exec (.mtc0 2 .status) user = .next t ∧ t.entered = true) ∧
    (∃ t, exec (.lw 4 2 0) user = .next t ∧ t.entered = false) :=
  ⟨by decide, enters_of (by decide), completes_of (by decide)⟩

theorem witness_ExceptionsArePrecise : ∃ t, exec (.sw 4 2 2) buffered = .next t ∧ t.entered = true :=
  enters_of (by decide)

end Sys2Proof.Tests
end

section
/-! PROOFS. What an instruction may change: one statement about every instruction, from which the frames, the precise
exceptions and the invariant follow. -/

namespace Sys2Proof.Machine

/-- The instructions that write LLbit (R31). -/
def WritesLlBit (i : Instr) : Prop := (∃ base rt off, i = .ll base rt off ∨ i = .sc base rt off) ∨ i = .eret

/-- The instructions that write a CP0 register (R37). -/
def WritesCp0 (i : Instr) : Prop := (∃ rt rd, i = .mtc0 rt rd) ∨ i = .eret

/-- `t` differs from `s` at most in what the instruction `i` may write, in the sequencing of instructions and in the free values
drawn, and keeps the invariant. -/
structure Footprint (i : Instr) (s t : State) : Prop where
  regs : ∀ r, i.destination ≠ some r → t.reg r = s.reg r
  hiLo : i.writesHiLo = false → t.hi = s.hi ∧ t.lo = s.lo
  llBit : ¬WritesLlBit i → t.llBit = s.llBit
  cp0 : ¬WritesCp0 i → t.cp0 = s.cp0
  cop : ∀ z, i.changesCop ≠ some z → t.cop z = s.cop z
  memory : i.usesMemory = false → SameMemory s t
  env : t.env = s.env
  inv : s.Inv → t.Inv

theorem SameMemory.refl (s : State) : SameMemory s s := ⟨rfl, rfl, rfl, rfl, rfl⟩

theorem SameMemory.trans {s t u : State} (h : SameMemory s t) (g : SameMemory t u) : SameMemory s u := by
  obtain ⟨hm, hi, hd, hw, hs⟩ := h
  obtain ⟨gm, gi, gd, gw, gs⟩ := g
  exact ⟨gm.trans hm, gi.trans hi, gd.trans hd, gw.trans hw, gs.trans hs⟩

/-- A load's byte is a function of memory, the caches, the buffers and what lies outside. -/
theorem SameMemory.sameBytes {s t : State} (h : SameMemory s t) (he : t.env = s.env) : SameBytes s t := by
  obtain ⟨hm, -, hd, hw, hs⟩ := h
  intro a
  calc t.byteAt a
    _ = State.byteAt { s with
          mem := t.mem, dcache := t.dcache, writeback := t.writeback, stores := t.stores, env := t.env } a := rfl
    _ = s.byteAt a := by rw [hm, hd, hw, hs, he]

/-! ## What the operations on the state change -/

namespace Footprint

variable {i : Instr} {s t u : State}

theorem refl (i : Instr) (s : State) : Footprint i s s :=
  ⟨fun _ _ => rfl, fun _ => ⟨rfl, rfl⟩, fun _ => rfl, fun _ => rfl, fun _ _ => rfl, fun _ => .refl s, rfl, id⟩

theorem trans (h : Footprint i s t) (g : Footprint i t u) : Footprint i s u where
  regs r hr := (g.regs r hr).trans (h.regs r hr)
  hiLo hi := ⟨(g.hiLo hi).1.trans (h.hiLo hi).1, (g.hiLo hi).2.trans (h.hiLo hi).2⟩
  llBit hi := (g.llBit hi).trans (h.llBit hi)
  cp0 hi := (g.cp0 hi).trans (h.cp0 hi)
  cop z hz := (g.cop z hz).trans (h.cop z hz)
  memory hi := (h.memory hi).trans (g.memory hi)
  env := g.env.trans h.env
  inv hs := g.inv (h.inv hs)

/-- The sequencing of instructions and the count of free values are no instruction's own state. -/
theorem of_sequencing
    (h : t = { s with
      pc := t.pc, npc := t.npc, inDelaySlot := t.inDelaySlot, last1 := t.last1, last2 := t.last2, freeCount := t.freeCount })
    (hq : s.Inv → t.inDelaySlot = false → t.npc = t.pc + 4) : Footprint i s t where
  regs := fun r _ => s.reg_congr (by rw [h]) r
  hiLo _ := ⟨by rw [h], by rw [h]⟩
  llBit _ := by rw [h]
  cp0 _ := by rw [h]
  cop z _ := by rw [h]; cases z <;> rfl
  memory _ := ⟨by rw [h], by rw [h], by rw [h], by rw [h], by rw [h]⟩
  env := by rw [h]
  inv hs :=
    { memory := by rw [h]; exact hs.memory
      zero := by rw [h]; exact hs.zero
      sequential := hq hs
      room := by rw [h]; exact hs.room
      stores := by rw [h]; exact hs.stores
      line := by rw [h]; exact hs.line }

theorem drawn (n : Nat) : Footprint i s (s.drawn n) := .of_sequencing rfl fun hs => hs.sequential

theorem retire (k : Retired) : Footprint i s (s.retire k) := .of_sequencing rfl fun _ _ => rfl

theorem transfer (a : Word) : Footprint i s (s.transfer a) := .of_sequencing rfl fun _ h => by cases h

theorem fallThrough : Footprint i s s.fallThrough := .of_sequencing rfl fun _ h => by cases h

theorem nullify : Footprint i s s.nullify :=
  .of_sequencing rfl fun _ _ => by rw [nullify_npc, nullify_pc, BitVec.add_assoc]; rfl

theorem setReg {d : Reg} (hd : i.destination = some d) (v : Word) : Footprint i s (s.setReg d v) where
  regs r hr := s.reg_setReg_ne v fun he => hr (by rw [hd, he])
  hiLo _ := ⟨rfl, rfl⟩
  llBit _ := rfl
  cp0 _ := rfl
  cop _ _ := rfl
  memory _ := .refl s
  env := rfl
  inv hs := ⟨hs.memory, (s.setReg_entry_zero d v).trans hs.zero, hs.sequential, hs.room, hs.stores, hs.line⟩

theorem setHiLo (hi : i.writesHiLo = true) (a b : Word) : Footprint i s { s with hi := a, lo := b } where
  regs _ _ := rfl
  hiLo h := by rw [hi] at h; cases h
  llBit _ := rfl
  cp0 _ := rfl
  cop z _ := by cases z <;> rfl
  memory _ := .refl s
  env := rfl
  inv hs := ⟨hs.memory, hs.zero, hs.sequential, hs.room, hs.stores, hs.line⟩

theorem setLlBit (hi : WritesLlBit i) (b : Bool) : Footprint i s { s with llBit := b } where
  regs _ _ := rfl
  hiLo _ := ⟨rfl, rfl⟩
  llBit h := absurd hi h
  cp0 _ := rfl
  cop z _ := by cases z <;> rfl
  memory _ := .refl s
  env := rfl
  inv hs := ⟨hs.memory, hs.zero, hs.sequential, hs.room, hs.stores, hs.line⟩

theorem setCp0 (hi : WritesCp0 i) (c : Cp0) : Footprint i s { s with cp0 := c } where
  regs _ _ := rfl
  hiLo _ := ⟨rfl, rfl⟩
  llBit _ := rfl
  cp0 h := absurd hi h
  cop z _ := by cases z <;> rfl
  memory _ := .refl s
  env := rfl
  inv hs := ⟨hs.memory, hs.zero, hs.sequential, hs.room, hs.stores, hs.line⟩

theorem setCop {z : Cop} (hz : i.changesCop = some z) (c : Coprocessor) : Footprint i s (s.setCop z c) where
  regs _ _ := rfl
  hiLo _ := ⟨rfl, rfl⟩
  llBit _ := rfl
  cp0 _ := rfl
  cop y hy := (s.cop_setCop z y c).trans (if_neg fun he => hy (by rw [hz, he]))
  memory _ := .refl s
  env := rfl
  inv hs := ⟨hs.memory, hs.zero, hs.sequential, hs.room, hs.stores, hs.line⟩

/-- An instruction that goes to memory may change memory, the caches and the buffers, as long as they keep their part of the
invariant. -/
theorem of_memory (hi : i.usesMemory = true)
    (h : t = { s with
      mem := t.mem, icache := t.icache, dcache := t.dcache, writeback := t.writeback, stores := t.stores })
    (hs : s.Inv → t.mem.wf = true ∧ t.stores.length ≤ 16 ∧ t.stores.all NcStore.wf = true ∧
      ∀ w, t.writeback = some w → lineOffset w.va = 0) : Footprint i s t where
  regs := fun r _ => s.reg_congr (by rw [h]) r
  hiLo _ := ⟨by rw [h], by rw [h]⟩
  llBit _ := by rw [h]
  cp0 _ := by rw [h]
  cop z _ := by rw [h]; cases z <;> rfl
  memory hn := by rw [hi] at hn; cases hn
  env := by rw [h]
  inv hv := by
    obtain ⟨hm, hr, hw, hl⟩ := hs hv
    exact ⟨hm, by rw [h]; exact hv.zero, by rw [h]; exact hv.sequential, hr, hw, hl⟩

theorem of_dataFrame (hi : i.usesMemory = true) (h : DataFrame s t) : Footprint i s t :=
  .of_memory hi (by rw [h.od]) h.inv

theorem setIset (hi : i.usesMemory = true) (va : Word) (c : CacheSet Unit) : Footprint i s (s.setIset va c) :=
  .of_memory hi rfl fun hs => ⟨hs.memory, hs.room, hs.stores, hs.line⟩

theorem setDset (hi : i.usesMemory = true) (va : Word) (c : CacheSet Bool) : Footprint i s (s.setDset va c) :=
  .of_dataFrame hi ((DataFrame.refl s).setDset va c)

theorem evict (hi : i.usesMemory = true) (va : Word) (w : WaySel) : Footprint i s (s.evict va w) :=
  .of_dataFrame hi ((DataFrame.refl s).evict va w fun _ => id)

theorem drainWriteback (hi : i.usesMemory = true) : Footprint i s s.drainWriteback :=
  .of_memory hi rfl fun hs => ⟨wf_memAfterWriteback hs.memory, hs.room, hs.stores, fun _ h => by cases h⟩

theorem drainStores (hi : i.usesMemory = true) : Footprint i s s.drainStores :=
  .of_memory hi rfl fun hs => ⟨wf_commitStores _ _ hs.memory, Nat.zero_le _, rfl, hs.line⟩

/-! ## What the CACHE operations change -/

theorem icacheFill (hi : i.usesMemory = true) {k : AccessKind} {e : GeneralException} {v w : WaySel} {va : Word}
    (h : icacheFill k e v va s = .ok w t) : Footprint i s t := by
  unfold Machine.icacheFill at h
  split at h
  · cases h
  · cases h
    exact (setIset hi va _).trans (setIset hi va _)

theorem dcacheFill (hi : i.usesMemory = true) {k : AccessKind} {v w : WaySel} {va : Word} (h : dcacheFill k v va s = .ok w t) :
    Footprint i s t :=
  .of_dataFrame hi (dcacheFill_frame h)

/-- A dirty line, written back, takes the place of what the writeback buffer held. -/
theorem writebackWay (hi : i.usesMemory = true) (va : Word) (w : WaySel) : Footprint i s (s.writebackWay va w) := by
  refine .of_memory hi rfl fun hs => ⟨?_, hs.room, hs.stores, fun x hx => ?_⟩
  · rw [writebackWay_mem]
    split
    · exact wf_memAfterWriteback hs.memory
    · exact hs.memory
  · change (if _ then some _ else _) = some x at hx
    split at hx
    · cases hx
      exact lineOffset_lineAddress _ _
    · exact hs.line x hx

theorem indexWritebackInvalidate (hi : i.usesMemory = true) (va : Word) :
    Footprint i s (s.indexWritebackInvalidate va) := by
  unfold State.indexWritebackInvalidate
  split
  · exact refl i s
  · exact (writebackWay hi va _).trans (setDset hi va _)

theorem hitWriteback (hi : i.usesMemory = true) (va : Word) : Footprint i s (s.hitWriteback va) := by
  unfold State.hitWriteback
  split
  · exact refl i s
  · exact writebackWay hi va _

theorem hitWritebackInvalidate (hi : i.usesMemory = true) (va : Word) : Footprint i s (s.hitWritebackInvalidate va) := by
  unfold State.hitWritebackInvalidate
  split
  · exact refl i s
  · exact (writebackWay hi va _).trans (setDset hi va _)

theorem createDirty (hi : i.usesMemory = true) (va : Word) : Footprint i s (s.createDirty va) := by
  have hroom : Footprint i s (s.createRoom va) := by
    unfold State.createRoom
    split
    · exact refl i s
    · exact evict hi va _
  exact ((hroom.trans (setDset hi va _)).trans (setDset hi va _)).trans (drawn 1)

/-- An access that goes on after another, as a lock after a fill. -/
theorem of_bind {α : Type} {a : Access α} {k : α → State → Access Unit} {x : Unit}
    (ha : ∀ v u, a = .ok v u → Footprint i s u) (hk : ∀ v u t, k v u = .ok x t → Footprint i u t)
    (h : a.bind k = .ok x t) : Footprint i s t := by
  obtain ⟨v, u, hu, ht⟩ := Access.bind_ok h
  exact (ha v u hu).trans (hk v u t ht)

/-- An access that ends in a state within the footprint. -/
theorem of_ok {x : Unit} (h : Footprint i s u) (ht : Access.ok () u = .ok x t) : Footprint i s t := by
  cases ht
  exact h

theorem onCached {va : Word} {a : Access Unit} {x : Unit} (ha : a = .ok x t → Footprint i s t)
    (h : onCached va a = .ok x t) : Footprint i s t := by
  unfold Machine.onCached at h
  split at h
  · exact ha h
  · cases h

theorem hitOnCached {va : Word} {x : Unit} (hu : Footprint i s u) (h : hitOnCached va s u = .ok x t) :
    Footprint i s t := by
  refine of_ok ?_ h
  split
  · exact hu
  · exact refl i s

theorem fillI (hi : i.usesMemory = true) {va : Word} {x : Unit} (h : Machine.fillI va s = .ok x t) :
    Footprint i s t := by
  unfold Machine.fillI at h
  split at h
  · exact of_ok (refl i s) h
  · exact of_bind (fun _ _ => icacheFill hi) (fun _ u _ => of_ok (refl i u)) h

theorem fillLockI (hi : i.usesMemory = true) {va : Word} {x : Unit} (h : Machine.fillLockI va s = .ok x t) :
    Footprint i s t := by
  unfold Machine.fillLockI at h
  split at h
  · exact of_ok ((setIset hi va _).trans (drawn 1)) h
  · exact of_bind (fun _ _ => icacheFill hi) (fun _ _ _ => of_ok (setIset hi va _)) h

theorem fillD (hi : i.usesMemory = true) {va : Word} {x : Unit} (h : Machine.fillD va s = .ok x t) :
    Footprint i s t := by
  unfold Machine.fillD at h
  split at h
  · exact of_ok (refl i s) h
  · exact of_bind (fun _ _ => dcacheFill hi) (fun _ u _ => of_ok (refl i u)) h

theorem fillLockD (hi : i.usesMemory = true) {va : Word} {x : Unit} (h : Machine.fillLockD va s = .ok x t) :
    Footprint i s t := by
  unfold Machine.fillLockD at h
  split at h
  · exact of_ok ((setDset hi va _).trans (drawn 1)) h
  · exact of_bind (fun _ _ => dcacheFill hi) (fun _ _ _ => of_ok (setDset hi va _)) h

/-- A CACHE operation that completes changes memory, the caches and the writeback buffer alone (R386). -/
theorem cacheOperation (hi : i.usesMemory = true) {op : CacheOp} {va : Word} {x : Unit}
    (h : cacheOperation op va s = .ok x t) : Footprint i s t := by
  cases op with
  | indexInvalidateI | indexUnlockI => exact of_ok (setIset hi va _) h
  | hitInvalidateI => exact hitOnCached (setIset hi va _) h
  | fillI => exact onCached (fillI hi) h
  | fillLockI => exact onCached (fillLockI hi) h
  | indexWritebackInvalidateD => exact of_ok (indexWritebackInvalidate hi va) h
  | indexUnlockD => exact of_ok (setDset hi va _) h
  | createDirtyD => exact onCached (of_ok (createDirty hi va)) h
  | hitInvalidateD => exact hitOnCached (setDset hi va _) h
  | hitWritebackD => exact hitOnCached (hitWriteback hi va) h
  | hitWritebackInvalidateD => exact hitOnCached (hitWritebackInvalidate hi va) h
  | createDirtyLockD => exact onCached (of_ok ((createDirty hi va).trans (setDset hi va _))) h
  | fillD => exact onCached (fillD hi) h
  | fillLockD => exact onCached (fillLockD hi) h
  | blank func => cases h

end Footprint

/-! ## What an instruction's outcome can be -/

/-- Where the outcome is a next state, it is the entry of an exception in the state `s` that the instruction began in, or the
instruction has completed within its footprint. -/
def Within (i : Instr) (s : State) (r : Result) : Prop :=
  ∀ t, r = .next t → (∃ e, t = takeException e s) ∨ Footprint i s t ∧ t.entered = false

namespace Within

variable {i : Instr} {s u : State}

theorem completed (h : Footprint i s u) (hu : u.entered = false) : Within i s (.next u) := by
  rintro t ⟨⟩
  exact .inr ⟨h, hu⟩

theorem raised (e : GeneralException) : Within i s (raise e s) := by
  rintro t ⟨⟩
  exact .inl ⟨e, rfl⟩

theorem refused (r : Refusal) : Within i s (.refused r) := by rintro t ⟨⟩

theorem ite {c : Prop} [Decidable c] {r q : Result} (hr : Within i s r) (hq : Within i s q) :
    Within i s (if c then r else q) := by
  split
  · exact hr
  · exact hq

theorem retired (h : Footprint i s u) {k : Retired} (hk : (k == .entry) = false) : Within i s (.next (u.retire k)) :=
  completed (h.trans (.retire k)) hk

theorem writeBack {d : Reg} (hd : i.destination = some d) {v : Word} (h : Footprint i s u) :
    Within i s (writeBack d v u) :=
  retired (h.trans (.setReg hd v)) rfl

theorem writeAcc (hi : i.writesHiLo = true) {v : BitVec 64} : Within i s (writeAcc v s) :=
  retired (.setHiLo hi _ _) rfl

theorem requireCp0 {r : Result} (h : Within i s r) : Within i s (requireCp0 s r) := by
  rcases requireCp0_cases s r with he | he | he <;> rw [he]
  · exact h
  · exact raised _
  · exact refused _

theorem requireCop {z : Cop} {r : Result} (h : Within i s r) : Within i s (requireCop z s r) := by
  rcases requireCop_cases s z r with he | he | he <;> rw [he]
  · exact h
  · exact raised _
  · exact refused _

/-- An exception of an access is taken in the state that the instruction began in. -/
theorem complete {α : Type} {a : Access α} {k : α → State → State}
    (h : ∀ v u, a = .ok v u → Footprint i s (k v u) ∧ (k v u).entered = false) : Within i s (a.complete s k) := by
  intro t ht
  rcases Access.complete_next s ht with ⟨v, u, hu, rfl⟩ | ⟨e, -, rfl⟩
  · exact .inr (h v u hu)
  · exact .inl ⟨e, rfl⟩

/-! ## Jumps and branches -/

theorem jump {a : Word} {link : State → State} (h : Footprint i s (link s)) : Within i s (jump a link s) :=
  ite (refused _) (completed (h.trans (.transfer a)) rfl)

theorem branch {b : Bool} {off : Imm16} (h : Footprint i s u) : Within i s (branch b off u) := by
  refine ite (refused _) ?_
  cases b
  · exact completed (h.trans .fallThrough) rfl
  · exact completed (h.trans (.transfer _)) rfl

theorem branchLikely {b : Bool} {off : Imm16} (h : Footprint i s u) : Within i s (branchLikely b off u) := by
  refine ite (refused _) ?_
  cases b
  · exact completed (h.trans .nullify) rfl
  · exact completed (h.trans (.transfer _)) rfl

/-! ## Loads and stores -/

theorem load {n : Nat} {f : Word → Word} {base rt : Reg} {off : Imm16} (hi : i.usesMemory = true)
    (hd : i.destination = some rt) : Within i s (load n f base rt off s) :=
  complete fun _ _ h => ⟨((Footprint.of_dataFrame hi (memRead_frame h)).trans (.setReg hd _)).trans (.retire _), rfl⟩

theorem loadPart {p : WordPart} {merge : Nat → Word → Word → Word} {va : Word} {rt : Reg} (hi : i.usesMemory = true)
    (hd : i.destination = some rt) : Within i s (loadPart p merge va rt s) :=
  complete fun _ _ h => ⟨((Footprint.of_dataFrame hi (memReadPart_frame h)).trans (.setReg hd _)).trans (.retire _), rfl⟩

theorem store {n : Nat} {base rt : Reg} {off : Imm16} (hi : i.usesMemory = true) (hn : n = 1 ∨ n = 2 ∨ n = 4) :
    Within i s (store n base rt off s) :=
  complete fun _ _ h => ⟨(Footprint.of_dataFrame hi (memWrite_frame hn h)).trans (.retire _), rfl⟩

theorem storePart {p : WordPart} {va v : Word} (hi : i.usesMemory = true)
    (hp : 0 < p.count ∧ p.start.toNat % 4 + p.count ≤ 4) : Within i s (storePart p va v s) :=
  complete fun _ _ h => ⟨(Footprint.of_dataFrame hi (memWritePart_frame hp h)).trans (.retire _), rfl⟩

theorem execLl {base rt : Reg} {off : Imm16} (hi : i.usesMemory = true) (hd : i.destination = some rt)
    (hl : WritesLlBit i) : Within i s (execLl base rt off s) :=
  complete fun _ _ h =>
    ⟨(((Footprint.of_dataFrame hi (memRead_frame h)).trans (.setReg hd _)).trans (.setLlBit hl true)).trans (.retire _), rfl⟩

theorem execSc {base rt : Reg} {off : Imm16} (hi : i.usesMemory = true) (hd : i.destination = some rt)
    (hl : WritesLlBit i) : Within i s (execSc base rt off s) := by
  have hend (t : State) (v : Word) : Footprint i t (t.afterSc rt v) :=
    (((Footprint.setReg hd v).trans (.setLlBit hl _)).trans (.drawn 1)).trans (.retire _)
  refine ite (complete fun _ t h => ⟨?_, rfl⟩) (complete fun _ t h => ⟨?_, rfl⟩)
  · exact (Footprint.of_dataFrame hi (memWrite_frame (.inr (.inr rfl)) h)).trans (hend t 1)
  · rw [checkAddress_next s h]
    exact hend s 0

theorem execCache {base : Reg} {op : CacheOp} {off : Imm16} (hi : i.usesMemory = true) :
    Within i s (execCache base op off s) := by
  refine requireCp0 (complete fun _ t h => ⟨?_, rfl⟩)
  obtain ⟨_, u, hu, hop⟩ := Access.bind_ok h
  rw [checkAddress_next s hu] at hop
  exact (Footprint.cacheOperation hi hop).trans (.retire _)

/-! ## Coprocessors -/

theorem loadToCop {z : Cop} (base rt : Reg) (off : Imm16) (hi : i.usesMemory = true) (hz : i.changesCop = some z) :
    Within i s (loadToCop z base rt off s) :=
  requireCop <| complete fun _ _ h =>
    ⟨((Footprint.of_dataFrame hi (memRead_frame h)).trans (.setCop hz _)).trans (.retire _), rfl⟩

theorem storeFromCop {z : Cop} (base rt : Reg) (off : Imm16) (hi : i.usesMemory = true) :
    Within i s (storeFromCop z base rt off s) :=
  requireCop <| complete fun _ _ h =>
    ⟨(Footprint.of_dataFrame hi (memWrite_frame (.inr (.inr rfl)) h)).trans (.retire _), rfl⟩

theorem moveToCop {z : Cop} (rt rd : Reg) (hz : i.changesCop = some z) : Within i s (moveToCop z rt rd s) :=
  requireCop (retired (.setCop hz _) rfl)

theorem moveFromCop {z : Cop} (rt rd : Reg) (hd : i.destination = some rt) : Within i s (moveFromCop z rt rd s) :=
  requireCop (writeBack hd (.refl i s))

theorem condWriter_ne_entry (z : Cop) : (condWriter z == .entry) = false := by cases z <;> rfl

theorem moveControlToCop {z : Cop} (rt rd : Reg) (hz : i.changesCop = some z) : Within i s (moveControlToCop z rt rd s) :=
  requireCop (retired ((Footprint.setCop hz _).trans (.drawn 1)) (condWriter_ne_entry z))

theorem moveControlFromCop {z : Cop} (rt rd : Reg) (hd : i.destination = some rt) :
    Within i s (moveControlFromCop z rt rd s) :=
  requireCop (writeBack hd (.drawn 1))

theorem copOperation {z : Cop} (cofun : BitVec 25) (hz : i.changesCop = some z) : Within i s (copOperation z cofun s) :=
  requireCop (retired ((Footprint.setCop hz _).trans (.drawn 1)) (condWriter_ne_entry z))

theorem copBranch (z : Cop) (on : Bool) (off : Imm16) : Within i s (copBranch z on off s) :=
  requireCop (branch (.drawn _))

theorem copBranchLikely (z : Cop) (on : Bool) (off : Imm16) : Within i s (copBranchLikely z on off s) :=
  requireCop (branchLikely (.drawn _))

/-! ## CP0 -/

theorem execMtc0 {rt : Reg} {rd : Cp0Reg} (hi : WritesCp0 i) : Within i s (execMtc0 rt rd s) :=
  requireCp0 (retired (.setCp0 hi _) (by cases rd <;> rfl))

theorem execEret (hl : WritesLlBit i) (hc : WritesCp0 i) : Within i s (execEret s) := by
  have hret : Footprint i s (exceptionReturn s) :=
    ((Footprint.setCp0 hc _).trans (.setLlBit hl false)).trans (.of_sequencing rfl fun _ _ => rfl)
  exact requireCp0 (ite (refused _) (ite (refused _) (completed hret rfl)))

end Within

/-- Every instruction keeps to its footprint, or enters an exception in the state that it began in. -/
theorem exec_within (i : Instr) (s : State) : Within i s (exec i s) := by
  cases i with
  | lb base rt off | lbu base rt off | lh base rt off | lhu base rt off | lw base rt off => exact .load rfl rfl
  | lwl base rt off | lwr base rt off => exact .loadPart rfl rfl
  | ll base rt off => exact .execLl rfl rfl (.inl ⟨base, rt, off, .inl rfl⟩)
  | sb base rt off => exact .store rfl (.inl rfl)
  | sh base rt off => exact .store rfl (.inr (.inl rfl))
  | sw base rt off => exact .store rfl (.inr (.inr rfl))
  | swl base rt off => exact .storePart rfl (part_in_word s.bigEndian (s.effectiveAddress base off)).1
  | swr base rt off => exact .storePart rfl (part_in_word s.bigEndian (s.effectiveAddress base off)).2
  | sc base rt off => exact .execSc rfl rfl (.inl ⟨base, rt, off, .inr rfl⟩)
  | addi rs rt imm => exact .ite (.raised .ov) (.writeBack rfl (.refl _ s))
  | add rs rt rd | sub rs rt rd => exact .ite (.raised .ov) (.writeBack rfl (.refl _ s))
  | addiu rs rt imm | slti rs rt imm | sltiu rs rt imm | andi rs rt imm | ori rs rt imm | xori rs rt imm
  | lui rt imm | addu rs rt rd | subu rs rt rd | slt rs rt rd | sltu rs rt rd | and rs rt rd | or rs rt rd
  | xor rs rt rd | nor rs rt rd | sll rt rd sa | srl rt rd sa | sra rt rd sa | sllv rs rt rd | srlv rs rt rd
  | srav rs rt rd | mfhi rd | mflo rd | max rs rt rd | min rs rt rd | movn rs rt rd | movz rs rt rd | seb rt rd
  | seh rt rd | rotr rt rd sa | rotrv rs rt rd | wsbh rt rd | wsbw rt rd | bitrev rt rd | clz rs rd | clo rs rd =>
    exact .writeBack rfl (.refl _ s)
  | ext rs rt sizeM1 pos | ins rs rt msb pos => exact .ite (.writeBack rfl (.drawn 1)) (.writeBack rfl (.refl _ s))
  | mult rs rt | multu rs rt | madd rs rt | maddu rs rt | msub rs rt | msubu rs rt => exact .writeAcc rfl
  | div rs rt | divu rs rt =>
    exact .ite (.retired ((Footprint.setHiLo rfl _ _).trans (.drawn 2)) rfl) (.writeAcc rfl)
  | mthi rs | mtlo rs => exact .retired (.setHiLo rfl _ _) rfl
  | j target => exact .jump (.refl _ s)
  | jr rs => exact .jump (.refl _ s)
  | jal target => exact .jump (link := fun t => t.setReg 31 (linkValue t.pc)) (.setReg rfl _)
  | jalr rs rd => exact .jump (link := fun t => t.setReg rd (linkValue t.pc)) (.setReg rfl _)
  | beq rs rt off | bne rs rt off | blez rs off | bgtz rs off | bltz rs off | bgez rs off => exact .branch (.refl _ s)
  | bltzal rs off | bgezal rs off => exact .branch ((Footprint.setReg rfl _).trans (.drawn _))
  | beql rs rt off | bnel rs rt off | blezl rs off | bgtzl rs off | bltzl rs off | bgezl rs off =>
    exact .branchLikely (.refl _ s)
  | bltzall rs off | bgezall rs off => exact .branchLikely ((Footprint.setReg rfl _).trans (.drawn _))
  | syscall code => exact .raised .sys
  | brk code => exact .raised .bp
  | sync => exact .retired ((Footprint.drainWriteback rfl).trans (.drainStores rfl)) rfl
  | lwc1 base rt off | lwc2 base rt off | lwc3 base rt off => exact .loadToCop base rt off rfl rfl
  | swc1 base rt off | swc2 base rt off | swc3 base rt off => exact .storeFromCop base rt off rfl
  | mtc1 rt rd | mtc2 rt rd | mtc3 rt rd => exact .moveToCop rt rd rfl
  | mfc1 rt rd | mfc2 rt rd | mfc3 rt rd => exact .moveFromCop rt rd rfl
  | ctc1 rt rd | ctc2 rt rd | ctc3 rt rd => exact .moveControlToCop rt rd rfl
  | cfc1 rt rd | cfc2 rt rd | cfc3 rt rd => exact .moveControlFromCop rt rd rfl
  | cop1 cofun | cop2 cofun | cop3 cofun => exact .copOperation cofun rfl
  | bc1f off | bc2f off | bc3f off => exact .copBranch _ false off
  | bc1t off | bc2t off | bc3t off => exact .copBranch _ true off
  | bc1fl off | bc2fl off | bc3fl off => exact .copBranchLikely _ false off
  | bc1tl off | bc2tl off | bc3tl off => exact .copBranchLikely _ true off
  | mfc0 rt rd => exact .requireCp0 (.writeBack rfl (.drawn _))
  | mtc0 rt rd => exact .execMtc0 (.inl ⟨rt, rd, rfl⟩)
  | eret => exact .execEret (.inr rfl) (.inr rfl)
  | cache base op off => exact .execCache rfl

/-! ## What follows for `exec` -/

/-- An instruction writes no general register but its destination, and an exception entry writes none. -/
theorem exec_reg {i : Instr} {s t : State} (h : exec i s = .next t) {r : Reg} (hr : i.destination ≠ some r) :
    t.reg r = s.reg r := by
  rcases exec_within i s t h with ⟨e, rfl⟩ | ⟨hf, -⟩
  · rfl
  · exact hf.regs r hr

/-- An instruction changes no coprocessor but its own, and an exception entry changes none. -/
theorem exec_cop {i : Instr} {s t : State} (h : exec i s = .next t) {z : Cop} (hz : i.changesCop ≠ some z) :
    t.cop z = s.cop z := by
  rcases exec_within i s t h with ⟨e, rfl⟩ | ⟨hf, -⟩
  · cases z <;> rfl
  · exact hf.cop z hz

/-- An instruction that enters no exception has kept to its footprint. -/
theorem exec_footprint {i : Instr} {s t : State} (h : exec i s = .next t) (ht : t.entered = false) : Footprint i s t := by
  rcases exec_within i s t h with ⟨e, rfl⟩ | ⟨hf, -⟩
  · cases ht
  · exact hf

/-- Settles O57: a completed instruction keeps to its footprint, and an exception entry writes no general register. -/
theorem onlyDestinationChanges : Obligations.OnlyDestinationChanges := by
  unfold Obligations.OnlyDestinationChanges
  exact ⟨fun _ _ _ _ h hr => exec_reg h hr, fun s r q v => ⟨s.reg_zero, s.reg_setReg r v q, rfl⟩⟩

/-- Settles O58, from the footprint of the instruction. -/
theorem onlyTheirWritersChangeSpecialState : Obligations.OnlyTheirWritersChangeSpecialState := by
  unfold Obligations.OnlyTheirWritersChangeSpecialState
  intro i s t h ht
  have hf := exec_footprint h ht
  refine ⟨hf.hiLo, not_imp_comm.1 hf.llBit, not_imp_comm.1 hf.cp0, hf.cop, fun hm => ?_, hf.env⟩
  exact ⟨hf.memory hm, (hf.memory hm).sameBytes hf.env⟩

/-- Settles O60: an instruction that completes does not leave the machine at an entry, so a machine at an entry is one in
which the instruction has raised. -/
theorem exceptionsArePrecise : Obligations.ExceptionsArePrecise := by
  unfold Obligations.ExceptionsArePrecise
  intro i s t h ht
  rcases exec_within i s t h with he | ⟨-, hn⟩
  · exact he
  · rw [hn] at ht
    cases ht

end Sys2Proof.Machine
end

section
/-! PROOFS. The instruction cycle (R25): what its parts do, that each keeps the invariant, and the obligations about a step. -/

namespace Sys2Proof.Machine

/-! ## The invariant at the start of a step -/

theorem busEvent_inv {s : State} (h : s.Inv) (e : BusEvent) : (s.busEvent e).Inv := by
  have hseq : (s.busEvent e).inDelaySlot = false → (s.busEvent e).npc = (s.busEvent e).pc + 4 := by simpa using h.sequential
  have hzero : (s.busEvent e).regs[0] = 0 := by simpa using h.zero
  cases e with
  | writeback => exact ⟨wf_memAfterWriteback h.memory, hzero, hseq, h.room, h.stores, fun _ hw => by cases hw⟩
  | store k =>
    refine ⟨?_, hzero, hseq, ?_, ?_, h.line⟩
    · change Memory.wf (if _ then _ else _) = true
      split
      · exact wf_commitStores _ _ h.memory
      · exact h.memory
    · change List.length (if _ then _ else _) ≤ 16
      split
      · exact (List.length_eraseIdx_le _ _).trans h.room
      · exact h.room
    · change List.all (if _ then _ else _) _ = true
      split
      · exact List.all_eq_true.2 fun e he => List.all_eq_true.1 h.stores e (List.mem_of_mem_eraseIdx he)
      · exact h.stores
  | outside c => exact ⟨Memory.wf_write h.memory _ _, hzero, hseq, h.room, h.stores, h.line⟩

theorem busEvents_inv {s : State} (h : s.Inv) (es : List BusEvent) : (s.busEvents es).Inv := by
  induction es generalizing s with
  | nil => exact h
  | cons e es ih => exact ih (busEvent_inv h e)

theorem tick_inv {s : State} (h : s.Inv) : s.tick.Inv := ⟨h.memory, h.zero, h.sequential, h.room, h.stores, h.line⟩

theorem applyInput_inv {s : State} (h : s.Inv) (i : Input) (rest : List Input) : (s.applyInput i rest).Inv :=
  ⟨h.memory, h.zero, h.sequential, h.room, h.stores, h.line⟩

theorem begin_inv {s : State} (h : s.Inv) : s.begin.Inv := by
  unfold State.begin
  split
  · exact tick_inv h
  · next i rest _ => exact tick_inv (busEvents_inv (applyInput_inv h i rest) i.bus)

/-! ## Exceptions and the end of a step -/

theorem takeException_inv {s : State} (h : s.Inv) (e : GeneralException) : (takeException e s).Inv :=
  ⟨h.memory, h.zero, fun _ => rfl, h.room, h.stores, h.line⟩

theorem resetEntry_inv {s : State} (h : s.Inv) (k : ErrorException) : (resetEntry k s).Inv where
  memory := Environment.wf_scramble _ h.memory _ _
  zero := Vector.getElem_set_self _
  sequential _ := rfl
  room := Nat.zero_le _
  stores := rfl
  line _ hw := by cases hw

theorem errorEntry_inv {s : State} (h : s.Inv) (k : ErrorException) : (errorEntry k s).Inv := by
  cases k with
  | hardwareReset | softwareReset => exact resetEntry_inv h _
  | nmi => exact ⟨h.memory, h.zero, fun _ => rfl, h.room, h.stores, h.line⟩

theorem endStep_inv {s : State} (h : s.Inv) : s.endStep.Inv :=
  ⟨h.memory, h.zero, h.sequential, h.room, h.stores, h.line⟩

/-! ## Fetch -/

/-- A fetch changes nothing but the instruction cache (R120). -/
theorem fetch_next {s t : State} {w : Word} (h : fetch s = .ok w t) : t = { s with icache := t.icache } := by
  obtain ⟨_, u, hu, h⟩ := Access.bind_ok h
  obtain rfl := checkAddress_next s hu
  obtain ⟨bs, v, hv, h⟩ := Access.bind_ok h
  cases h
  unfold fetchBytes at hv
  split at hv
  · obtain ⟨w, v', hv', he⟩ := Access.bind_ok hv
    cases he
    rcases icacheAccess_cases u u.pc with ⟨_, -, ha⟩ | ⟨-, -, ha⟩ | ⟨-, -, ha⟩ <;>
      rw [ha] at hv' <;> cases hv' <;> rfl
  · split at hv
    · cases hv
    · cases hv
      rfl

theorem fetch_inv {s t : State} {w : Word} (hf : fetch s = .ok w t) (h : s.Inv) : t.Inv := by
  rw [fetch_next hf]
  exact ⟨h.memory, h.zero, h.sequential, h.room, h.stores, h.line⟩

theorem fetch_fpeDue {s t : State} {w : Word} (h : fetch s = .ok w t) : t.fpeDue = s.fpeDue := by
  rw [fetch_next h]
  rfl

/-! ## Execution -/

/-- A word that no row matches raises, or is refused (R160). -/
theorem unmatchedWord_next {w : Word} {s t : State} (h : unmatchedWord w s = .next t) : ∃ e, t = takeException e s := by
  have hres (u : State) (hu : reservedWord w s = .next u) : ∃ e, u = takeException e s := by
    unfold reservedWord at hu
    split at hu <;> cases hu
    exact ⟨_, rfl⟩
  unfold unmatchedWord at h
  split at h
  · rcases requireCp0_cases s (reservedWord w s) with he | he | he <;> rw [he] at h
    · exact hres t h
    · cases h
      exact ⟨_, rfl⟩
    · cases h
  · split at h
    · next z _ =>
      rcases requireCop_cases s z (reservedWord w s) with he | he | he <;> rw [he] at h
      · exact hres t h
      · cases h
        exact ⟨_, rfl⟩
      · cases h
    · exact hres t h

/-- A word's instruction enters an exception in the state that it began in, or completes and keeps the invariant. -/
theorem runWord_next {w : Word} {s t : State} (h : runWord w s = .next t) :
    (∃ e, t = takeException e s) ∨ (s.Inv → t.Inv) ∧ t.entered = false := by
  unfold runWord at h
  split at h
  · next i _ =>
    rcases exec_within i s t h with he | ⟨hf, hn⟩
    · exact .inl he
    · exact .inr ⟨hf.inv, hn⟩
  · exact .inl (unmatchedWord_next h)

theorem runWord_inv {w : Word} {s t : State} (h : runWord w s = .next t) (hs : s.Inv) : t.Inv := by
  rcases runWord_next h with ⟨e, rfl⟩ | ⟨hi, -⟩
  · exact takeException_inv hs e
  · exact hi hs

/-- An FPU that is as it was raises no exception at an instruction before which none was due. -/
theorem raisesFpe_eq_false {s t : State} (h : s.fpeDue = false) (hc : t.cop1 = s.cop1) : t.raisesFpe s = false := by
  rw [← h]
  simp only [State.raisesFpe, State.fpeDue, State.fpuRequests, hc]

theorem arbitrate_inv {s t : State} (irq : Bool) (hs : s.Inv) (ht : t.Inv) : (arbitrate irq s t).Inv := by
  have hfpu : (s.withFpuOf t).Inv := ⟨hs.memory, hs.zero, hs.sequential, hs.room, hs.stores, hs.line⟩
  unfold arbitrate
  split
  · split
    · exact ht
    · exact takeException_inv hs _
  · split
    · exact takeException_inv hfpu _
    · split
      · exact takeException_inv hs _
      · exact ht

theorem arbitrate_itself {irq : Bool} {s t : State} (hd : s.fpeDue = false) (hr : t.raisesFpe s = false)
    (hi : irq = false ∨ t.entered = true) : arbitrate irq s t = t := by
  rcases hi with hi | hi <;> simp [arbitrate, hd, hr, hi]

theorem arbitrate_fpe {irq : Bool} {s t : State} (hd : s.fpeDue = false) (hr : t.raisesFpe s = true) :
    arbitrate irq s t = takeException .fpe (s.withFpuOf t) := by
  simp [arbitrate, hd, hr]

theorem arbitrate_int {s t : State} (hd : s.fpeDue = false) (hr : t.raisesFpe s = false) (ht : t.entered = false) :
    arbitrate true s t = takeException .int s := by
  simp [arbitrate, hd, hr, ht]

theorem conclude_inv {irq : Bool} {s t : State} {r : Result} (hs : s.Inv) (hr : ∀ u, r = .next u → u.Inv)
    (h : conclude irq s r = .next t) : t.Inv := by
  cases r with
  | next u =>
    cases h
    exact arbitrate_inv irq hs (hr u rfl)
  | fault f => cases h
  | refused x =>
    simp only [conclude] at h
    split at h <;> cases h
    exact takeException_inv hs _

theorem runInstruction_inv {s t : State} (hs : s.Inv) (h : runInstruction s = .next t) : t.Inv := by
  unfold runInstruction at h
  split at h
  · cases h
  · split at h
    · next w u hf => exact conclude_inv (fetch_inv hf hs) (fun _ hu => runWord_inv hu (fetch_inv hf hs)) h
    · cases h
      exact takeException_inv hs _
    · cases h

theorem runStep_inv {s t : State} (hs : s.Inv) (h : runStep s = .next t) : t.Inv := by
  unfold runStep at h
  split at h
  · cases h
    exact errorEntry_inv (begin_inv hs) _
  · exact runInstruction_inv (begin_inv hs) h

theorem onNext_next {f : State → State} {r : Result} {t : State} (h : onNext f r = .next t) :
    ∃ u, r = .next u ∧ t = f u := by
  cases r with
  | next u => exact ⟨u, rfl, by cases h; rfl⟩
  | fault x => cases h
  | refused x => cases h

/-- Settles O6: every part of the instruction cycle keeps the invariant. -/
theorem stepKeepsInvariant : Obligations.StepKeepsInvariant := by
  unfold Obligations.StepKeepsInvariant
  intro s t hs h
  obtain ⟨u, hu, rfl⟩ := onNext_next h
  exact endStep_inv (runStep_inv hs hu)

/-- Settles O7: registers and memory are zero, both buffers empty, and `npc` follows `pc`. -/
theorem resetInvariant : Obligations.ResetInvariant := by
  unfold Obligations.ResetInvariant
  exact ⟨rfl, rfl, fun _ => rfl, Nat.zero_le _, rfl, fun _ hw => by cases hw⟩

/-! ## The step -/

/-- A step whose word has been fetched concludes the instruction and advances Count. -/
theorem step_of_fetch {s t : State} {w : Word} {m : Mode} (he : s.event = none) (hm : s.begin.mode = some m)
    (hf : fetch s.begin = .ok w t) :
    step s = onNext State.endStep (conclude s.begin.interruptCondition t (runWord w t)) := by
  simp only [step, cycle, runStep, he, runInstruction, hm, hf]

theorem step_of_runWord {s t u : State} {w : Word} {m : Mode} (he : s.event = none) (hm : s.begin.mode = some m)
    (hf : fetch s.begin = .ok w t) (hr : runWord w t = .next u) :
    step s = .next (arbitrate s.begin.interruptCondition t u).endStep := by
  rw [step_of_fetch he hm hf, hr]
  rfl

theorem runWord_of_decode {w : Word} {i : Instr} (h : decode w = .ok i) (s : State) : runWord w s = exec i s := by
  simp only [runWord, h]

theorem conclude_false_of_no_fpe {s : State} {r : Result} (hd : s.fpeDue = false)
    (hr : ∀ u, r = .next u → u.raisesFpe s = false) : conclude false s r = r := by
  cases r with
  | next u => rw [conclude, arbitrate_itself hd (hr u rfl) (.inl rfl)]
  | fault f => rfl
  | refused x => simp [conclude, hd]

/-- Settles O4: where nothing is in the way the conclusion of a step is the instruction's outcome, and only an instruction that
changes coprocessor 1 can make the FPU request an exception that was not due. -/
theorem stepRunsDecodedInstruction : Obligations.StepRunsDecodedInstruction := by
  unfold Obligations.StepRunsDecodedInstruction
  intro s t w i m he hm hd hi hf hdec
  have hd' : t.fpeDue = false := (fetch_fpeDue hf).trans hd
  have hrun := runWord_of_decode hdec t
  have hplain (hr : ∀ u, exec i t = .next u → u.raisesFpe t = false) : step s = onNext State.endStep (exec i t) := by
    rw [step_of_fetch he hm hf, hi, hrun, conclude_false_of_no_fpe hd' hr]
  have hfpu (hc : i.changesCop ≠ some .cp1) (u : State) (hu : exec i t = .next u) : u.raisesFpe t = false :=
    raisesFpe_eq_false hd' (exec_cop (z := .cp1) hu hc)
  refine ⟨fetch_next hf, hplain, fun u hu hr => ⟨?_, ?_⟩, fun hc => hplain (hfpu hc)⟩
  · by_contra hc
    rw [hfpu hc u hu] at hr
    cases hr
  · rw [step_of_runWord he hm hf (hrun.trans hu), arbitrate_fpe hd' hr]

/-! ## Interrupts and modes -/

/-- Settles O10: `Status.interruptsEnabled`, its conjunction read as propositions. -/
theorem interruptsEnabledExactlyWhen : Obligations.InterruptsEnabledExactlyWhen := by
  unfold Obligations.InterruptsEnabledExactlyWhen
  intro st
  simp only [Status.interruptsEnabled, Bool.and_eq_true, Bool.not_eq_true', and_assoc]

/-- Two bytes have a bit in common exactly when their conjunction is not 0. -/
theorem and_bne_zero_iff (a b : BitVec 8) :
    ((a &&& b) != 0) = true ↔ ∃ n, n < 8 ∧ a.getLsbD n = true ∧ b.getLsbD n = true := by
  rw [bne_iff_ne, ne_eq, BitVec.eq_of_getLsbD_eq_iff]
  simp

theorem interruptCondition_iff (s : State) :
    s.interruptCondition = true ↔ s.cp0.status.ie = true ∧ s.cp0.status.exl = false ∧ s.cp0.status.erl = false ∧
      ∃ n, n < 8 ∧ s.pending.getLsbD n = true ∧ s.cp0.status.im.getLsbD n = true := by
  rw [State.interruptCondition, Bool.and_eq_true, interruptsEnabledExactlyWhen, and_bne_zero_iff, and_assoc, and_assoc]

/-- Settles O52: the interrupt is the last choice of `arbitrate`, and an instruction that enters an exception of its own leaves
the FPU as it was, so that no FPU exception comes before that one. -/
theorem interruptTaken : Obligations.InterruptTaken := by
  unfold Obligations.InterruptTaken
  intro s t u w m
  refine ⟨interruptCondition_iff s, fun he hm hd hi hf hr => ?_⟩
  have hd' : t.fpeDue = false := (fetch_fpeDue hf).trans hd
  have hstep := step_of_runWord he hm hf hr
  rw [hi] at hstep
  refine ⟨fun hn hq => ?_, fun hn => ?_⟩
  · rw [hstep, arbitrate_int hd' hq hn]
  · have hcop : u.cop1 = t.cop1 := by
      rcases runWord_next hr with ⟨e, rfl⟩ | ⟨-, hc⟩
      · rfl
      · rw [hn] at hc
        cases hc
    rw [hstep, arbitrate_itself hd' (raisesFpe_eq_false hd' hcop) (.inr hn)]

/-- The start of a step leaves CP0 alone, and so the mode. -/
theorem begin_cp0 (s : State) : s.begin.cp0 = s.cp0 := by
  have hbus (es : List BusEvent) (t : State) : (t.busEvents es).cp0 = t.cp0 := by
    induction es generalizing t with
    | nil => rfl
    | cons e es ih => exact (ih _).trans (busEvent_cp0 t e)
  unfold State.begin
  split
  · rfl
  · exact hbus _ _

/-- Settles O9: `Status.mode` case by case, and a step without an event asks for the mode first. -/
theorem operatingMode : Obligations.OperatingMode := by
  unfold Obligations.OperatingMode
  intro s
  refine ⟨fun h => ?_, fun he hx hk => ?_, fun he hx hk => ?_, fun he hx hk hv => ?_⟩
  · rcases h with h | h | h <;> simp [State.mode, Status.mode, h]
  · simp [State.mode, Status.mode, he, hx, hk]
  · simp [State.mode, Status.mode, he, hx, hk]
  · have hm : s.begin.mode = none := by simp [State.mode, Status.mode, begin_cp0, he, hx, hk]
    simp only [step, cycle, runStep, hv, runInstruction, hm, onNext]

/-- Settles O8: the fields of `State.reset`, and every instruction cache set of it is empty. -/
theorem resetState : Obligations.ResetState := by
  unfold Obligations.ResetState
  refine ⟨rfl, rfl, rfl, rfl, rfl, rfl, rfl, rfl, rfl, rfl, rfl, rfl, fun va w => ?_⟩
  have hset : State.reset.iset va = emptySet () := Vector.getElem_replicate _
  rw [hset]
  cases w <;> rfl

end Sys2Proof.Machine
end

section
/-! PROOFS. Which bytes a load or store leaves as they read (R112, R113, R117). -/

namespace Sys2Proof.Machine

/-! ## What a byte reads as when its line has to be filled -/

/-- What the writeback buffer holds, if anything, is a whole line, and not the physical line of `a` under another virtual address. -/
def State.BufferUnaliased (s : State) (a : Word) : Prop :=
  ∀ y, s.writeback = some y → lineOffset y.va = 0 ∧
    (physical y.va = physicalLine a → y.va = lineAddress (lineTag a) (setIndex a))

/-- A line of memory that does not begin where the line of `a` does holds no byte of it. -/
theorem physical_outside_line {va a : Word} (h0 : lineOffset va = 0) (hne : physical va ≠ physicalLine a) :
    physical a < physical va ∨ physical va + 64 ≤ physical a := by
  have hva := physical_offset va
  rw [h0, physicalLine_eq] at hva
  have ha := physicalLine_eq a
  have hz : (0 : BitVec 6).toNat = 0 := rfl
  omega

/-- Emptying the writeback buffer does not change the bytes of a line that it does not hold. -/
theorem read_memAfterWriteback_of_not_held {s : State} {a : Word} (hs : s.BufferUnaliased a)
    (hh : s.writebackHolds a = false) : s.memAfterWriteback.read (physical a) = s.mem.read (physical a) := by
  unfold State.memAfterWriteback
  split
  · rfl
  · next y hy =>
    obtain ⟨h0, hal⟩ := hs y hy
    have hne : y.va ≠ lineAddress (lineTag a) (setIndex a) := by simpa [State.writebackHolds, hy] using hh
    apply Environment.read_writeBytes_outside
    simpa using physical_outside_line h0 fun he => hne (hal he)

/-- A refill finds the byte of `a` in the writeback buffer, if that holds its line, and else in memory: a victim that has to make
room does not change it. -/
theorem read_refillMemory {s : State} {a : Word} (hs : s.BufferUnaliased a) :
    (s.refillMemory a).read (physical a) =
      (if s.writebackHolds a then s.memAfterWriteback else s.mem).read (physical a) := by
  by_cases hh : s.writebackHolds a = true
  · have hnone : (s.settleLine a).writeback = none := by simp [State.settleLine, hh]
    rw [State.refillMemory, evict_mem_of_empty hnone]
    rfl
  · have hf : s.writebackHolds a = false := by simpa using hh
    have hsettle : s.settleLine a = s := by simp only [State.settleLine, hf]; rfl
    rw [State.refillMemory, hsettle, if_neg hh, evict_mem]
    split
    · exact read_memAfterWriteback_of_not_held hs hf
    · rfl

/-- The data cache has no part in what a refill reads. -/
theorem readByte_refillMemory_setDset {s : State} {a : Word} (hs : s.BufferUnaliased a) (va : Word) (c : CacheSet Bool) :
    s.env.readByte ((s.setDset va c).refillMemory a) (physical a) = s.env.readByte (s.refillMemory a) (physical a) := by
  have ht : (s.setDset va c).BufferUnaliased a := hs
  apply Environment.readByte_congr
  rw [read_refillMemory hs, read_refillMemory ht]
  rfl

theorem evict_writeback (s : State) (va : Word) (w : WaySel) :
    (s.evict va w).writeback = if s.dirtyVictim va w then
      some { va := lineAddress ((s.dset va).way w).tag (setIndex va), data := ((s.dset va).way w).data }
    else s.writeback := rfl

/-- What a data cache access leaves in an empty writeback buffer is a dirty line of the cache. -/
theorem dcacheAccess_bufferUnaliased {s t : State} {k : AccessKind} {va a : Word} {w : WaySel} (hs : s.Settled)
    (ha : s.Unaliased a) (h : dcacheAccess k va s = .ok w t) : t.BufferUnaliased a := by
  rcases dcacheAccess_cases s k va with ⟨v, -, he⟩ | ⟨-, -, he⟩ | ⟨-, -, he⟩ <;> rw [he] at h <;> cases h
  · intro y hy
    rw [touchD_writeback, hs.empty] at hy
    cases hy
  · intro y hy
    rw [settleLine_of_empty hs.empty, touchD_writeback, fillDset_writeback, evict_writeback] at hy
    split at hy
    · next hd =>
      cases hy
      simp only [State.dirtyVictim, Bool.and_eq_true] at hd
      exact ⟨lineOffset_lineAddress _ _, ha va _ hd.1 hd.2⟩
    · rw [hs.empty] at hy
      cases hy

/-! ## The bytes beside those stored -/

/-- Where an address is found, the line is its own. -/
theorem sameLine_of_find {c : CacheSet Bool} {va a : Word} {w : WaySel} (hi : setIndex a = setIndex va)
    (hva : c.find (lineTag va) = some w) (ha : c.find (lineTag a) = some w) : SameLine a va :=
  sameLine_of_set_tag hi ((c.find_some ha).2.symm.trans (c.find_some hva).2)

theorem find_setWay_written {c : CacheSet Bool} {w : WaySel} (va : Word) (bs : List Byte) (tag : BitVec 19) :
    (c.setWay w ((c.way w).store va bs)).find tag = c.find tag := by
  apply CacheSet.find_congr
  all_goals
    intro v
    by_cases hv : v = w
    · subst hv; simp [Way.store]
    · simp [hv]

/-- Bytes written into the way that holds a line change no byte beside them. -/
theorem byteAt_setDset_store {s : State} {va a : Word} {w : WaySel} {bs : List Byte} (hw : va.toNat % 4 + bs.length ≤ 4)
    (hf : (s.dset va).find (lineTag va) = some w) (ha : a ∉ addresses va bs.length) (hb : s.BufferUnaliased a) :
    (s.setDset va ((s.dset va).setWay w (((s.dset va).way w).store va bs))).byteAt a = s.byteAt a := by
  unfold State.byteAt
  by_cases hc : cachedAddress a = true
  · rw [if_pos hc, if_pos hc, setDset_env, readByte_refillMemory_setDset hb, State.dset_setDset]
    by_cases hi : setIndex a = setIndex va
    · have hset : s.dset a = s.dset va := by simp only [State.dset, hi]
      rw [if_pos hi, hset, find_setWay_written]
      cases hfa : (s.dset va).find (lineTag a) with
      | none => rfl
      | some v =>
        simp only [CacheSet.way_setWay]
        by_cases hv : v = w
        · subst hv
          have hl := sameLine_of_find hi hf hfa
          rw [if_pos rfl, Way.store, lineByte_lineWrite _ _ _ _ hw hl, dif_neg]
          rintro ⟨hge, hlt⟩
          refine ha (mem_addresses.2 ⟨a.toNat - va.toNat, by omega, BitVec.eq_of_toNat_eq ?_⟩)
          rw [toNat_add_of_word (by omega)]
          omega
        · rw [if_neg hv]
    · rw [if_neg hi]
  · rw [if_neg hc, if_neg hc]
    rfl

/-- A buffered store has no byte for an address beside its own. -/
theorem byteAt_none_of_not_mem {va a : Word} {bs : List Byte} (ha : a ∉ addresses va bs.length) :
    NcStore.byteAt { va := va, bytes := bs } a = none := by
  rw [NcStore.byteAt, List.getElem?_eq_none_iff]
  by_contra hlt
  exact ha (mem_addresses.2 ⟨(a - va).toNat, by simpa using hlt, by rw [BitVec.ofNat_toNat]; simp⟩)

/-- A store into a buffer with room changes no byte beside its own. -/
theorem byteAt_pushStore {s : State} {va a : Word} {bs : List Byte} (hr : s.stores.length < 16)
    (ha : a ∉ addresses va bs.length) : (s.pushStore va bs).byteAt a = s.byteAt a := by
  have ho : s.overflow = 0 := by simp only [State.overflow]; omega
  have hp : s.pushStore va bs = { s with stores := s.stores ++ [{ va := va, bytes := bs }] } := by
    simp only [State.pushStore, ho, List.take_zero, List.drop_zero, Environment.commitStores]
  rw [hp]
  unfold State.byteAt
  by_cases hc : cachedAddress a = true
  · rw [if_pos hc, if_pos hc]
    rfl
  · rw [if_neg hc, if_neg hc]
    simp only [State.nonCachedByte, bufferedByte_append_other _ _ _ (byteAt_none_of_not_mem ha)]
    rfl

/-- In a settled state a store changes no byte beside its own, where no other virtual address of it is dirty (R117). -/
theorem storeBytes_byteAt {s t : State} {va a : Word} {bs : List Byte} {x : Unit} (hw : va.toNat % 4 + bs.length ≤ 4)
    (hs : s.Settled) (hu : s.Unaliased a) (ha : a ∉ addresses va bs.length) (h : storeBytes va bs s = .ok x t) :
    t.byteAt a = s.byteAt a := by
  unfold storeBytes at h
  split at h
  · obtain ⟨w, u, hacc, he⟩ := Access.bind_ok h
    cases he
    calc (u.setDset va ((u.dset va).setWay w (((u.dset va).way w).store va bs))).byteAt a
      _ = u.byteAt a := byteAt_setDset_store hw (dcacheAccess_find s hacc) ha (dcacheAccess_bufferUnaliased hs hu hacc)
      _ = s.byteAt a := dcacheAccess_byteAt hs hu hacc
  · cases h
    exact byteAt_pushStore hs.room ha

/-! ## The loads and stores -/

theorem aligned_two (va : Word) : aligned 2 va = decide (va.toNat % 2 = 0) := by
  rw [Bool.eq_iff_iff, decide_eq_true_eq, aligned, beq_iff_eq, ← BitVec.toNat_inj, BitVec.extractLsb'_toNat]
  simp

theorem aligned_four (va : Word) : aligned 4 va = decide (va.toNat % 4 = 0) := by
  rw [Bool.eq_iff_iff, decide_eq_true_eq, aligned, beq_iff_eq, ← BitVec.toNat_inj, BitVec.extractLsb'_toNat]
  simp

/-- An access of one, two or four bytes that is aligned lies in one word (R86). -/
theorem aligned_in_word {n : Nat} {va : Word} (hn : n = 1 ∨ n = 2 ∨ n = 4) (h : aligned n va = true) :
    va.toNat % 4 + n ≤ 4 := by
  rcases hn with rfl | rfl | rfl
  · omega
  · rw [aligned_two, decide_eq_true_eq] at h
    omega
  · rw [aligned_four, decide_eq_true_eq] at h
    omega

/-- What comes after the checks runs in the state that they were made in (R101). -/
theorem checkAddress_bind_ok {α : Type} {k : AccessKind} {n : Nat} {va : Word} {f : Unit → State → Access α} {v : α}
    {s t : State} (h : (checkAddress k n va s).bind f = .ok v t) : aligned n va = true ∧ f () s = .ok v t := by
  obtain ⟨_, u, hc, hf⟩ := Access.bind_ok h
  have ha := checkAddress_aligned hc
  rw [checkAddress_next s hc] at hf
  exact ⟨ha, hf⟩

/-- A completed outcome leaves every byte outside `as` as it read in the state `s`, where no other virtual address of it is
dirty (R117). -/
def KeepsBytes (s : State) (as : List Word) (r : Result) : Prop :=
  ∀ t, r = .next t → t.entered = false → ∀ a, s.Unaliased a → a ∉ as → t.byteAt a = s.byteAt a

namespace KeepsBytes

variable {s : State} {as : List Word}

theorem raised (e : GeneralException) : KeepsBytes s as (raise e s) := by
  rintro t ⟨⟩ ht
  cases ht

theorem refused (r : Refusal) : KeepsBytes s as (.refused r) := by rintro t ⟨⟩

/-- An access that keeps the bytes, with an end of the instruction that goes to nothing that a byte is read from. -/
theorem complete {α : Type} {x : Access α} {k : α → State → State}
    (hx : ∀ v u, x = .ok v u → ∀ a, s.Unaliased a → a ∉ as → u.byteAt a = s.byteAt a)
    (hk : ∀ v u a, (k v u).byteAt a = u.byteAt a) : KeepsBytes s as (x.complete s k) := by
  intro t h ht a hu ha
  rcases Access.complete_next s h with ⟨v, u, hv, rfl⟩ | ⟨e, -, rfl⟩
  · exact (hk v u a).trans (hx v u hv a hu ha)
  · cases ht

theorem requireCop {z : Cop} {r : Result} (h : KeepsBytes s as r) : KeepsBytes s as (requireCop z s r) := by
  rcases requireCop_cases s z r with he | he | he <;> rw [he]
  · exact h
  · exact raised _
  · exact refused _

theorem memRead {va : Word} {n : Nat} {v : Word} {t : State} (hs : s.Settled) (h : memRead va n s = .ok v t) (a : Word)
    (hu : s.Unaliased a) : t.byteAt a = s.byteAt a := by
  obtain ⟨bs, u, hl, he⟩ := Access.bind_ok (checkAddress_bind_ok h).2
  cases he
  exact loadBytes_byteAt hl (.inr (.inr ⟨hs, hu⟩))

theorem memReadPart {va start : Word} {n : Nat} {v : Word} {t : State} (hs : s.Settled)
    (h : memReadPart va start n s = .ok v t) (a : Word) (hu : s.Unaliased a) : t.byteAt a = s.byteAt a := by
  obtain ⟨bs, u, hl, he⟩ := Access.bind_ok (checkAddress_bind_ok h).2
  cases he
  exact loadBytes_byteAt hl (.inr (.inr ⟨hs, hu⟩))

theorem memWrite {va : Word} {n : Nat} {v : Word} {x : Unit} {t : State} (hs : s.Settled) (hn : n = 1 ∨ n = 2 ∨ n = 4)
    (h : memWrite va n v s = .ok x t) (a : Word) (hu : s.Unaliased a) (ha : a ∉ addresses va n) :
    t.byteAt a = s.byteAt a := by
  obtain ⟨hal, h⟩ := checkAddress_bind_ok h
  exact storeBytes_byteAt (by rw [length_layOut]; exact aligned_in_word hn hal) hs hu (by rwa [length_layOut]) h

theorem memWritePart {va start : Word} {n : Nat} {v : Word} {x : Unit} {t : State} (hs : s.Settled)
    (hw : start.toNat % 4 + n ≤ 4) (h : memWritePart va start n v s = .ok x t) (a : Word) (hu : s.Unaliased a)
    (ha : a ∉ addresses start n) : t.byteAt a = s.byteAt a := by
  exact storeBytes_byteAt (by rwa [length_layOut]) hs hu (by rwa [length_layOut]) (checkAddress_bind_ok h).2

theorem load {n : Nat} {f : Word → Word} {base rt : Reg} {off : Imm16} (hs : s.Settled) :
    KeepsBytes s as (load n f base rt off s) :=
  complete (fun _ _ h a hu _ => memRead hs h a hu) fun _ _ _ => rfl

theorem loadPart {p : WordPart} {merge : Nat → Word → Word → Word} {va : Word} {rt : Reg} (hs : s.Settled) :
    KeepsBytes s as (loadPart p merge va rt s) :=
  complete (fun _ _ h a hu _ => memReadPart hs h a hu) fun _ _ _ => rfl

theorem execLl {base rt : Reg} {off : Imm16} (hs : s.Settled) : KeepsBytes s as (execLl base rt off s) :=
  complete (fun _ _ h a hu _ => memRead hs h a hu) fun _ _ _ => rfl

theorem loadToCop {z : Cop} (base rt : Reg) (off : Imm16) (hs : s.Settled) :
    KeepsBytes s as (loadToCop z base rt off s) :=
  requireCop (complete (fun _ _ h a hu _ => memRead hs h a hu) fun _ _ _ => rfl)

theorem store {n : Nat} {base rt : Reg} {off : Imm16} (hs : s.Settled) (hn : n = 1 ∨ n = 2 ∨ n = 4) :
    KeepsBytes s (addresses (s.effectiveAddress base off) n) (store n base rt off s) :=
  complete (fun _ _ h => memWrite hs hn h) fun _ _ _ => rfl

theorem storePart {p : WordPart} {va v : Word} (hs : s.Settled) (hp : p.start.toNat % 4 + p.count ≤ 4) :
    KeepsBytes s (addresses p.start p.count) (storePart p va v s) :=
  complete (fun _ _ h => memWritePart hs hp h) fun _ _ _ => rfl

theorem storeFromCop {z : Cop} (base rt : Reg) (off : Imm16) (hs : s.Settled) :
    KeepsBytes s (addresses (s.effectiveAddress base off) 4) (storeFromCop z base rt off s) :=
  requireCop (complete (fun _ _ h => memWrite hs (.inr (.inr rfl)) h) fun _ _ _ => rfl)

/-- SC stores only with LLbit set (R214). -/
theorem execSc {base rt : Reg} {off : Imm16} (hs : s.Settled) :
    KeepsBytes s (if s.llBit then addresses (s.effectiveAddress base off) 4 else []) (execSc base rt off s) := by
  unfold Machine.execSc
  split
  · exact complete (fun _ _ h => memWrite hs (.inr (.inr rfl)) h) fun _ _ _ => rfl
  · exact complete (fun _ _ h _ _ _ => by rw [checkAddress_next s h]) fun _ _ _ => rfl

end KeepsBytes

/-- Settles O37: the access of each load and store keeps the bytes beside those stored, in the cache, in the buffers and in
memory. -/
theorem loadStoreFrame : Obligations.LoadStoreFrame := by
  unfold Obligations.LoadStoreFrame
  intro i s t hi hs
  suffices h : KeepsBytes s (storedAddresses i s) (exec i s) from h t
  have hpart (va : Word) := part_in_word s.bigEndian va
  cases i with
  | lb base rt off | lbu base rt off | lh base rt off | lhu base rt off | lw base rt off => exact .load hs
  | lwl base rt off | lwr base rt off => exact .loadPart hs
  | ll base rt off => exact .execLl hs
  | sb base rt off => exact .store hs (.inl rfl)
  | sh base rt off => exact .store hs (.inr (.inl rfl))
  | sw base rt off => exact .store hs (.inr (.inr rfl))
  | swl base rt off => exact .storePart hs (hpart _).1.2
  | swr base rt off => exact .storePart hs (hpart _).2.2
  | sc base rt off => exact .execSc hs
  | lwc1 base rt off | lwc2 base rt off | lwc3 base rt off => exact .loadToCop base rt off hs
  | swc1 base rt off | swc2 base rt off | swc3 base rt off => exact .storeFromCop base rt off hs
  | _ => cases hi

end Sys2Proof.Machine
end

section
/-! PROOFS. Which bytes of physical memory an instruction can change: those of the two write buffers (R113, R114, R116). -/

namespace Sys2Proof.Machine

/-- Memory has changed at most at the bytes that a bus write in flight from `s` is about to write. -/
def ChangesInFlightOnly (s t : State) : Prop := ∀ a, a ∉ s.inFlight → t.mem.read a = s.mem.read a

namespace ChangesInFlightOnly

variable {s t u : State}

theorem of_mem_eq (h : t.mem = s.mem) : ChangesInFlightOnly s t := fun _ _ => by rw [h]

theorem trans_mem_eq (h : ChangesInFlightOnly s t) (hm : u.mem = t.mem) : ChangesInFlightOnly s u :=
  fun a ha => by rw [hm, h a ha]

theorem of_dataFrame (h : DataFrame s t) : ChangesInFlightOnly s t := h.fl

theorem setIset (s : State) (va : Word) (c : CacheSet Unit) : ChangesInFlightOnly s (s.setIset va c) := of_mem_eq rfl

theorem setDset (s : State) (va : Word) (c : CacheSet Bool) : ChangesInFlightOnly s (s.setDset va c) := of_mem_eq rfl

theorem evict (s : State) (va : Word) (w : WaySel) : ChangesInFlightOnly s (s.evict va w) :=
  of_dataFrame ((DataFrame.refl s).evict va w fun _ => id)

/-- SYNC empties the writeback buffer and then the stores (R342). -/
theorem sync (s : State) : ChangesInFlightOnly s s.drainWriteback.drainStores := fun a ha => by
  have hstores : a ∉ s.stores.flatMap NcStore.physicalBytes := fun h => ha (List.mem_append_right _ h)
  rw [drainStores_mem, drainWriteback_stores, drainWriteback_mem, read_commitStores_outside _ _ _ hstores,
    read_memAfterWriteback a ha]

/-! ## The CACHE operations -/

theorem writebackWay (s : State) (va : Word) (w : WaySel) : ChangesInFlightOnly s (s.writebackWay va w) := fun a ha => by
  rw [writebackWay_mem]
  split
  · exact read_memAfterWriteback a ha
  · rfl

theorem indexWritebackInvalidate (s : State) (va : Word) : ChangesInFlightOnly s (s.indexWritebackInvalidate va) := by
  unfold State.indexWritebackInvalidate
  split
  · exact of_mem_eq rfl
  · exact (writebackWay s va _).trans_mem_eq rfl

theorem hitWriteback (s : State) (va : Word) : ChangesInFlightOnly s (s.hitWriteback va) := by
  unfold State.hitWriteback
  split
  · exact of_mem_eq rfl
  · exact writebackWay s va _

theorem hitWritebackInvalidate (s : State) (va : Word) : ChangesInFlightOnly s (s.hitWritebackInvalidate va) := by
  unfold State.hitWritebackInvalidate
  split
  · exact of_mem_eq rfl
  · exact (writebackWay s va _).trans_mem_eq rfl

theorem createDirty (s : State) (va : Word) : ChangesInFlightOnly s (s.createDirty va) := by
  have hroom : ChangesInFlightOnly s (s.createRoom va) := by
    unfold State.createRoom
    split
    · exact of_mem_eq rfl
    · exact evict s va _
  exact hroom.trans_mem_eq rfl

theorem icacheFill {k : AccessKind} {e : GeneralException} {v w : WaySel} {va : Word}
    (h : icacheFill k e v va s = .ok w t) : ChangesInFlightOnly s t := by
  unfold Machine.icacheFill at h
  split at h <;> cases h
  exact of_mem_eq rfl

/-- A fill, with what is done to the set after it. -/
theorem fill_bind {a : Access WaySel} {f : State → State} {x : Unit} (ha : ∀ w u, a = .ok w u → ChangesInFlightOnly s u)
    (hf : ∀ u, (f u).mem = u.mem) (h : (a.bind fun _ u => .ok () (f u)) = .ok x t) : ChangesInFlightOnly s t := by
  obtain ⟨w, u, hu, he⟩ := Access.bind_ok h
  cases he
  exact (ha w u hu).trans_mem_eq (hf u)

theorem fillI {va : Word} {x : Unit} (h : fillI va s = .ok x t) : ChangesInFlightOnly s t := by
  unfold Machine.fillI at h
  split at h
  · cases h
    exact of_mem_eq rfl
  · exact fill_bind (f := id) (fun _ _ => icacheFill) (fun _ => rfl) h

theorem fillLockI {va : Word} {x : Unit} (h : fillLockI va s = .ok x t) : ChangesInFlightOnly s t := by
  unfold Machine.fillLockI at h
  split at h
  · cases h
    exact of_mem_eq rfl
  · exact fill_bind (f := fun u => u.setIset va (u.iset va).lockOn) (fun _ _ => icacheFill) (fun _ => rfl) h

theorem fillD {va : Word} {x : Unit} (h : fillD va s = .ok x t) : ChangesInFlightOnly s t := by
  unfold Machine.fillD at h
  split at h
  · cases h
    exact of_mem_eq rfl
  · exact fill_bind (f := id) (fun _ _ hu => of_dataFrame (dcacheFill_frame hu)) (fun _ => rfl) h

theorem fillLockD {va : Word} {x : Unit} (h : fillLockD va s = .ok x t) : ChangesInFlightOnly s t := by
  unfold Machine.fillLockD at h
  split at h
  · cases h
    exact of_mem_eq rfl
  · exact fill_bind (f := fun u => u.setDset va (u.dset va).lockOn) (fun _ _ hu => of_dataFrame (dcacheFill_frame hu))
      (fun _ => rfl) h

theorem of_ok {x : Unit} (h : ChangesInFlightOnly s u) (ht : Access.ok () u = .ok x t) : ChangesInFlightOnly s t := by
  cases ht
  exact h

theorem onCached {va : Word} {a : Access Unit} {x : Unit} (ha : a = .ok x t → ChangesInFlightOnly s t)
    (h : onCached va a = .ok x t) : ChangesInFlightOnly s t := by
  unfold Machine.onCached at h
  split at h
  · exact ha h
  · cases h

theorem hitOnCached {va : Word} {x : Unit} (hu : ChangesInFlightOnly s u) (h : hitOnCached va s u = .ok x t) :
    ChangesInFlightOnly s t := by
  refine of_ok ?_ h
  split
  · exact hu
  · exact of_mem_eq rfl

theorem cacheOperation {op : CacheOp} {va : Word} {x : Unit} (h : cacheOperation op va s = .ok x t) :
    ChangesInFlightOnly s t := by
  cases op with
  | indexInvalidateI | indexUnlockI => exact of_ok (setIset s va _) h
  | indexUnlockD => exact of_ok (setDset s va _) h
  | hitInvalidateI => exact hitOnCached (setIset s va _) h
  | hitInvalidateD => exact hitOnCached (setDset s va _) h
  | fillI => exact onCached fillI h
  | fillLockI => exact onCached fillLockI h
  | indexWritebackInvalidateD => exact of_ok (indexWritebackInvalidate s va) h
  | createDirtyD => exact onCached (of_ok (createDirty s va)) h
  | hitWritebackD => exact hitOnCached (hitWriteback s va) h
  | hitWritebackInvalidateD => exact hitOnCached (hitWritebackInvalidate s va) h
  | createDirtyLockD => exact onCached (of_ok ((createDirty s va).trans_mem_eq (setDset_mem _ va _))) h
  | fillD => exact onCached fillD h
  | fillLockD => exact onCached fillLockD h
  | blank func => cases h

/-! ## The instructions -/

/-- An instruction that goes to no memory changes none, and neither does an exception entry. -/
theorem exec_of_no_memory {i : Instr} (hi : i.usesMemory = false) (h : exec i s = .next t) : ChangesInFlightOnly s t := by
  rcases exec_within i s t h with ⟨e, rfl⟩ | ⟨hf, -⟩
  · exact of_mem_eq rfl
  · exact of_mem_eq (hf.memory hi).1

/-- An instruction that makes one access, whose end leaves memory alone. -/
theorem complete {α : Type} {a : Access α} {k : α → State → State} (h : a.complete s k = .next t)
    (ha : ∀ v u, a = .ok v u → ChangesInFlightOnly s u) (hk : ∀ v u, (k v u).mem = u.mem) : ChangesInFlightOnly s t := by
  rcases Access.complete_next s h with ⟨v, u, hu, rfl⟩ | ⟨e, -, rfl⟩
  · exact (ha v u hu).trans_mem_eq (hk v u)
  · exact of_mem_eq rfl

theorem requireCop {z : Cop} {r : Result} (h : requireCop z s r = .next t) (hr : r = .next t → ChangesInFlightOnly s t) :
    ChangesInFlightOnly s t := by
  rcases requireCop_cases s z r with he | he | he <;> rw [he] at h
  · exact hr h
  · cases h
    exact of_mem_eq rfl
  · cases h

theorem load {n : Nat} {f : Word → Word} {base rt : Reg} {off : Imm16} (h : load n f base rt off s = .next t) :
    ChangesInFlightOnly s t :=
  complete h (fun _ _ hu => of_dataFrame (memRead_frame hu)) fun _ _ => rfl

theorem loadPart {p : WordPart} {merge : Nat → Word → Word → Word} {va : Word} {rt : Reg}
    (h : loadPart p merge va rt s = .next t) : ChangesInFlightOnly s t :=
  complete h (fun _ _ hu => of_dataFrame (memReadPart_frame hu)) fun _ _ => rfl

theorem execLl {base rt : Reg} {off : Imm16} (h : execLl base rt off s = .next t) : ChangesInFlightOnly s t :=
  complete h (fun _ _ hu => of_dataFrame (memRead_frame hu)) fun _ _ => rfl

theorem loadToCop {z : Cop} (base rt : Reg) (off : Imm16) (h : loadToCop z base rt off s = .next t) :
    ChangesInFlightOnly s t :=
  requireCop h fun hr => complete hr (fun _ _ hu => of_dataFrame (memRead_frame hu)) fun _ _ => rfl

theorem store {n : Nat} {base rt : Reg} {off : Imm16} (hn : n = 1 ∨ n = 2 ∨ n = 4)
    (h : store n base rt off s = .next t) : ChangesInFlightOnly s t :=
  complete h (fun _ _ hu => of_dataFrame (memWrite_frame hn hu)) fun _ _ => rfl

theorem storePart {p : WordPart} {va v : Word} (hp : 0 < p.count ∧ p.start.toNat % 4 + p.count ≤ 4)
    (h : storePart p va v s = .next t) : ChangesInFlightOnly s t :=
  complete h (fun _ _ hu => of_dataFrame (memWritePart_frame hp hu)) fun _ _ => rfl

theorem storeFromCop {z : Cop} (base rt : Reg) (off : Imm16) (h : storeFromCop z base rt off s = .next t) :
    ChangesInFlightOnly s t :=
  requireCop h fun hr =>
    complete hr (fun _ _ hu => of_dataFrame (memWrite_frame (.inr (.inr rfl)) hu)) fun _ _ => rfl

theorem execSc {base rt : Reg} {off : Imm16} (h : execSc base rt off s = .next t) : ChangesInFlightOnly s t := by
  unfold Machine.execSc at h
  split at h
  · exact complete h (fun _ _ hu => of_dataFrame (memWrite_frame (.inr (.inr rfl)) hu)) fun _ _ => rfl
  · exact complete h (fun _ _ hu => of_mem_eq (by rw [checkAddress_next s hu])) fun _ _ => rfl

theorem execSync (h : execSync s = .next t) : ChangesInFlightOnly s t := by
  cases h
  exact (sync s).trans_mem_eq rfl

theorem execCache {base : Reg} {op : CacheOp} {off : Imm16} (h : execCache base op off s = .next t) :
    ChangesInFlightOnly s t := by
  unfold Machine.execCache at h
  rcases requireCp0_cases s _ with he | he | he <;> rw [he] at h
  · exact complete h (fun _ _ hu => cacheOperation (checkAddress_bind_ok hu).2) fun _ _ => rfl
  · cases h
    exact of_mem_eq rfl
  · cases h

end ChangesInFlightOnly

/-- Settles O38: only a load, a store, SYNC or CACHE goes to memory, and each of them reaches it through the two buffers. -/
theorem memoryChangesOnlyFromBuffers : Obligations.MemoryChangesOnlyFromBuffers := by
  unfold Obligations.MemoryChangesOnlyFromBuffers
  intro i s t a h
  suffices hc : ChangesInFlightOnly s t from hc a
  have hpart (va : Word) := part_in_word s.bigEndian va
  cases i with
  | lb base rt off | lbu base rt off | lh base rt off | lhu base rt off | lw base rt off => exact .load h
  | lwl base rt off | lwr base rt off => exact .loadPart h
  | ll base rt off => exact .execLl h
  | sb base rt off => exact .store (.inl rfl) h
  | sh base rt off => exact .store (.inr (.inl rfl)) h
  | sw base rt off => exact .store (.inr (.inr rfl)) h
  | swl base rt off => exact .storePart (hpart _).1 h
  | swr base rt off => exact .storePart (hpart _).2 h
  | sc base rt off => exact .execSc h
  | lwc1 base rt off | lwc2 base rt off | lwc3 base rt off => exact .loadToCop base rt off h
  | swc1 base rt off | swc2 base rt off | swc3 base rt off => exact .storeFromCop base rt off h
  | sync => exact .execSync h
  | cache base op off => exact .execCache h
  | _ => exact .exec_of_no_memory rfl h

end Sys2Proof.Machine
end

section
/-! PROOFS. Values and their bytes, the byte order in force, and the virtual address map (R81 to R83, R95 to R98, R101). -/

namespace Sys2Proof.Machine

/-! ## Values and bytes (R82, R83) -/

/-- A word of bytes is the first byte and 256 times the word of the others. -/
theorem toNat_leWord_cons (b : Byte) (bs : List Byte) :
    (leWord (b :: bs)).toNat = (leWord bs).toNat % 2 ^ 24 * 2 ^ 8 + b.toNat := by
  have hb := b.isLt
  have hlow : (b.setWidth 32).toNat = b.toNat := by rw [BitVec.toNat_setWidth]; omega
  have hhigh : (leWord bs <<< 8).toNat = 2 ^ 8 * ((leWord bs).toNat % 2 ^ 24) := by
    rw [BitVec.toNat_shiftLeft, Nat.shiftLeft_eq]; omega
  rw [leWord, BitVec.toNat_or, hlow, hhigh, ← Nat.two_pow_add_eq_or_of_lt hb, Nat.mul_comm]

theorem toNat_leWord_nil : (leWord []).toNat = 0 := rfl

theorem leWord_four (a b c d : Byte) : leWord [a, b, c, d] = d ++ c ++ b ++ a := by
  apply BitVec.eq_of_toNat_eq
  simp only [toNat_leWord_cons, toNat_leWord_nil, toNat_append]
  omega

theorem leWord_three (a b c : Byte) : leWord [a, b, c] = 0#8 ++ c ++ b ++ a := by
  apply BitVec.eq_of_toNat_eq
  simp only [toNat_leWord_cons, toNat_leWord_nil, toNat_append, BitVec.toNat_ofNat]
  omega

theorem leWord_two (a b : Byte) : leWord [a, b] = 0#16 ++ b ++ a := by
  apply BitVec.eq_of_toNat_eq
  simp only [toNat_leWord_cons, toNat_leWord_nil, toNat_append, BitVec.toNat_ofNat]
  omega

theorem leWord_one (a : Byte) : leWord [a] = 0#24 ++ a := by
  apply BitVec.eq_of_toNat_eq
  simp only [toNat_leWord_cons, toNat_leWord_nil, toNat_append, BitVec.toNat_ofNat]

/-- The `i`th byte of a value in little-endian order is its byte `i`. -/
theorem leBytes_eq_map (n : Nat) (v : Word) : leBytes n v = (List.range n).map fun i => v.extractLsb' (8 * i) 8 := by
  induction n generalizing v with
  | zero => rfl
  | succ n ih =>
    rw [leBytes, ih, List.range_succ_eq_map, List.map_cons, List.map_map]
    refine congrArg₂ List.cons (BitVec.setWidth_eq_extractLsb' (by omega)) (List.map_congr_left fun i _ => ?_)
    ext j hj
    simp only [Function.comp, BitVec.getElem_extractLsb', BitVec.getLsbD_ushiftRight]
    congr 1
    omega

/-- Settles O13: a big-endian value is the little-endian one of the reversed bytes. -/
theorem valueAssembly : Obligations.ValueAssembly := by
  unfold Obligations.ValueAssembly
  intro a b c d v
  refine ⟨leWord_four a b c d, leWord_four d c b a, leWord_three a b c, leWord_three c b a, leWord_two a b, leWord_two b a,
    leWord_one a, leWord_one a, ?_⟩
  have h4 : leBytes 4 v = _ := leBytes_eq_map 4 v
  have h3 : leBytes 3 v = _ := leBytes_eq_map 3 v
  have h2 : leBytes 2 v = _ := leBytes_eq_map 2 v
  have h1 : leBytes 1 v = _ := leBytes_eq_map 1 v
  exact ⟨h4, congrArg List.reverse h4, h3, congrArg List.reverse h3, h2, congrArg List.reverse h2, h1,
    congrArg List.reverse h1⟩

/-! ## The byte order (R81) -/

theorem bigEndian_iff (s : State) : s.bigEndian = true ↔ s.mode = some .user ∧ s.cp0.status.re = true := by
  simp only [State.bigEndian, Bool.and_eq_true, beq_iff_eq]

theorem bigEndian_of_not_user {s : State} (h : s.mode ≠ some .user) : s.bigEndian = false := by
  by_contra hb
  exact h ((bigEndian_iff s).1 (by simpa using hb)).1

/-- Every error exception sets ERL (R445), and so leads to kernel mode. -/
theorem errorEntry_mode (k : ErrorException) (s : State) : (errorEntry k s).mode = some .kernel := by
  have herl : (errorEntry k s).cp0.status.erl = true := by cases k <;> rfl
  simp [State.mode, Status.mode, herl]

/-- Settles O12: outside user mode the RE bit has no part in the byte order. -/
theorem byteOrder : Obligations.ByteOrder := by
  unfold Obligations.ByteOrder
  refine ⟨bigEndian_iff, fun s h => bigEndian_of_not_user ?_, fun k s => ⟨errorEntry_mode k s, bigEndian_of_not_user ?_⟩⟩
  · rcases h with h | h <;> simp [h]
  · simp [errorEntry_mode k s]

/-! ## The address map (R95 to R98, R101) -/

theorem allowedAddress_kernel (va : Word) : allowedAddress .kernel va = true := by
  unfold allowedAddress
  cases segment va <;> rfl

/-- Bits 31 to 29 of an address as a number. -/
theorem segment_cases (va : Word) :
    (va.toNat < 0x80000000 ∧ (segment va = .kuseg0 ∨ segment va = .kuseg1)) ∨
    (va.toNat / 0x20000000 = 4 ∧ segment va = .kseg0) ∨ (va.toNat / 0x20000000 = 5 ∧ segment va = .kseg1) ∨
    (va.toNat / 0x20000000 = 6 ∧ segment va = .ksseg) ∨ (va.toNat / 0x20000000 = 7 ∧ segment va = .kseg3) := by
  have hva := va.isLt
  unfold segment
  simp only [getLsbD_31, getLsbD_30, getLsbD_29, decide_eq_true_eq]
  split_ifs <;> simp <;> omega

theorem allowedAddress_user_iff (va : Word) : allowedAddress .user va = true ↔ va.toNat < 0x80000000 := by
  unfold allowedAddress
  rcases segment_cases va with ⟨h, hs | hs⟩ | ⟨h, hs⟩ | ⟨h, hs⟩ | ⟨h, hs⟩ | ⟨h, hs⟩ <;> simp [hs, Segment.allowed] <;> omega

theorem allowedAddress_supervisor_iff (va : Word) :
    allowedAddress .supervisor va = true ↔ va.toNat < 0x80000000 ∨ va.toNat / 0x20000000 = 6 := by
  unfold allowedAddress
  rcases segment_cases va with ⟨h, hs | hs⟩ | ⟨h, hs⟩ | ⟨h, hs⟩ | ⟨h, hs⟩ | ⟨h, hs⟩ <;> simp [hs, Segment.allowed] <;> omega

theorem cachedAddress_iff (va : Word) :
    cachedAddress va = true ↔ va.toNat < 0x40000000 ∨ (0x80000000 ≤ va.toNat ∧ va.toNat < 0xA0000000) ∨
      0xC0000000 ≤ va.toNat := by
  have hva := va.isLt
  rw [cachedAddress_eq]
  split <;> simp <;> omega

/-- An access that is misaligned, or to an address that the mode may not reference, is an address error. -/
theorem checkAddress_raise {s : State} {k : AccessKind} {n : Nat} {va : Word} {m : Mode} (hm : s.mode = some m)
    (h : aligned n va = false ∨ allowedAddress m va = false) : checkAddress k n va s = .raise (addressError k va) := by
  unfold checkAddress
  split
  · next ha =>
    rcases h with h | h
    · rw [h] at ha
      cases ha
    · simp [hm, h]
  · rfl

/-- Settles O11: segments, protection and translation by the number of the address. -/
theorem addressMap : Obligations.AddressMap := by
  unfold Obligations.AddressMap
  intro s m k n va hm ha
  refine ⟨allowedAddress_user_iff va, allowedAddress_supervisor_iff va, allowedAddress_kernel va, cachedAddress_iff va,
    checkAddress_ok s ha hm, fun hp hk => ?_, fun hp hk => ?_, fun h => ?_, fun h => ?_, by decide⟩
  · rw [checkAddress_raise hm (.inr hp)]
    cases k with
    | fetch | load => rfl
    | store => exact absurd rfl hk
  · rw [checkAddress_raise hm (.inr hp), hk]
    rfl
  · exact (physical_eq va).trans (if_neg (by omega))
  · exact (physical_eq va).trans (if_pos h)

end Sys2Proof.Machine
end

section
/-! PROOFS. The exceptions of loads and stores: address errors from the checks (R101), bus errors from the access (R106). -/

namespace Sys2Proof.Machine

/-! ## What an access raises -/

theorem dcacheAccess_raise {s : State} {k : AccessKind} {va : Word}
    (h : (!s.dataHit va && s.busError k (physicalLine va) 64) = true) : dcacheAccess k va s = .raise .dbe := by
  rcases dcacheAccess_cases s k va with ⟨w, hf, -⟩ | ⟨-, hb, -⟩ | ⟨-, -, he⟩
  · simp [State.dataHit, hf] at h
  · simp [hb] at h
  · exact he

theorem loadBytes_raise {s : State} {va : Word} {n : Nat} (h : s.loadFails va n = true) :
    loadBytes va n s = .raise .dbe := by
  unfold State.loadFails at h
  unfold loadBytes
  split
  · next hc =>
    rw [if_pos hc] at h
    rw [dcacheAccess_raise h, Access.bind]
  · next hc =>
    rw [if_neg hc] at h
    rw [if_pos h]

theorem storeBytes_raise {s : State} {va : Word} (bs : List Byte) (h : s.storeFails va = true) :
    storeBytes va bs s = .raise .dbe := by
  rw [State.storeFails, Bool.and_assoc, Bool.and_eq_true] at h
  obtain ⟨hc, hf⟩ := h
  rw [storeBytes, if_pos hc, dcacheAccess_raise hf, Access.bind]

/-- The line decides whether a store meets a bus error. -/
theorem storeFails_congr {s : State} {a b : Word} (h : SameLine a b) : s.storeFails a = s.storeFails b := by
  simp only [State.storeFails, State.dataHit, h.cachedAddress_eq, s.dset_congr h, h.lineTag_eq, h.physicalLine_eq]

theorem sameLine_wordAddress (va : Word) : SameLine (wordAddress va) va := by
  constructor
  rw [toNat_wordAddress]
  omega

/-- The parts of a word that LWL, LWR, SWL and SWR move lie in the line of the address. -/
theorem sameLine_parts (b : Bool) (va : Word) : SameLine (leftPart b va).start va ∧ SameLine (rightPart b va).start va := by
  cases b
  · exact ⟨sameLine_wordAddress va, ⟨rfl⟩⟩
  · exact ⟨⟨rfl⟩, sameLine_wordAddress va⟩

/-- Where a check raises, so does the access that it stands before. -/
theorem bind_checkAddress_raise {α : Type} {s : State} {k : AccessKind} {n : Nat} {va : Word} {m : Mode}
    (hm : s.mode = some m) (h : aligned n va = false ∨ allowedAddress m va = false) (f : Unit → State → Access α) :
    (checkAddress k n va s).bind f = .raise (addressError k va) := by
  rw [checkAddress_raise hm h, Access.bind]

/-- Where a check passes, the access goes on. -/
theorem bind_checkAddress_ok {α : Type} {s : State} {k : AccessKind} {n : Nat} {va : Word} {m : Mode}
    (hm : s.mode = some m) (ha : aligned n va = true) (hp : allowedAddress m va = true) (f : Unit → State → Access α) :
    (checkAddress k n va s).bind f = f () s := by
  rw [checkAddress_ok s ha hm hp, Access.bind]

section

variable {s : State} {m : Mode} {n : Nat} {va start : Word} (hm : s.mode = some m)
include hm

theorem memRead_adEL (h : aligned n va = false ∨ allowedAddress m va = false) : memRead va n s = .raise (.adEL va) :=
  bind_checkAddress_raise hm h _

theorem memReadPart_adEL (h : allowedAddress m va = false) : memReadPart va start n s = .raise (.adEL va) :=
  bind_checkAddress_raise hm (.inr h) _

theorem memWrite_adES (v : Word) (h : aligned n va = false ∨ allowedAddress m va = false) :
    memWrite va n v s = .raise (.adES va) :=
  bind_checkAddress_raise hm h _

theorem memWritePart_adES (v : Word) (h : allowedAddress m va = false) : memWritePart va start n v s = .raise (.adES va) :=
  bind_checkAddress_raise hm (.inr h) _

theorem memRead_dbe (ha : aligned n va = true) (hp : allowedAddress m va = true) (h : s.loadFails va n = true) :
    memRead va n s = .raise .dbe := by
  rw [memRead, bind_checkAddress_ok hm ha hp, loadBytes_raise h, Access.bind]

theorem memReadPart_dbe (hp : allowedAddress m va = true) (h : s.loadFails start n = true) :
    memReadPart va start n s = .raise .dbe := by
  rw [memReadPart, bind_checkAddress_ok hm rfl hp, loadBytes_raise h, Access.bind]

theorem memWrite_dbe (v : Word) (ha : aligned n va = true) (hp : allowedAddress m va = true) (h : s.storeFails va = true) :
    memWrite va n v s = .raise .dbe := by
  rw [memWrite, bind_checkAddress_ok hm ha hp, storeBytes_raise _ h]

theorem memWritePart_dbe (v : Word) (hp : allowedAddress m va = true) (h : s.storeFails start = true) :
    memWritePart va start n v s = .raise .dbe := by
  rw [memWritePart, bind_checkAddress_ok hm rfl hp, storeBytes_raise _ h]

end

/-! ## What an instruction does with it -/

theorem Access.complete_raise {α : Type} {a : Access α} {e : GeneralException} (h : a = .raise e) (s : State)
    (k : α → State → State) : a.complete s k = .next (takeException e s) := by
  rw [h]
  rfl

section

variable {s : State} {base : Reg} {off : Imm16} {e : GeneralException} (rt : Reg)

theorem load_raise {n : Nat} (h : memRead (s.effectiveAddress base off) n s = .raise e) (f : Word → Word) :
    load n f base rt off s = .next (takeException e s) :=
  Access.complete_raise h s _

theorem execLl_raise (h : memRead (s.effectiveAddress base off) 4 s = .raise e) :
    execLl base rt off s = .next (takeException e s) :=
  Access.complete_raise h s _

theorem loadPart_raise {p : WordPart} {va : Word} (h : memReadPart va p.start p.count s = .raise e)
    (merge : Nat → Word → Word → Word) : loadPart p merge va rt s = .next (takeException e s) :=
  Access.complete_raise h s _

theorem loadToCop_raise {z : Cop} (hz : z ≠ .cp3) (hu : s.copUsable z = true)
    (h : memRead (s.effectiveAddress base off) 4 s = .raise e) : loadToCop z base rt off s = .next (takeException e s) :=
  (requireCop_usable s hz hu).trans (Access.complete_raise h s _)

theorem store_raise {n : Nat} (h : memWrite (s.effectiveAddress base off) n (s.reg rt) s = .raise e) :
    store n base rt off s = .next (takeException e s) :=
  Access.complete_raise h s _

theorem storePart_raise {p : WordPart} {va v : Word} (h : memWritePart va p.start p.count v s = .raise e) :
    storePart p va v s = .next (takeException e s) :=
  Access.complete_raise h s _

theorem storeFromCop_raise {z : Cop} (hz : z ≠ .cp3) (hu : s.copUsable z = true)
    (h : memWrite (s.effectiveAddress base off) 4 (s.cpr z rt) s = .raise e) :
    storeFromCop z base rt off s = .next (takeException e s) :=
  (requireCop_usable s hz hu).trans (Access.complete_raise h s _)

/-- SC makes its checks whatever LLbit holds (GK14, log entry 25). -/
theorem execSc_adES {m : Mode} (hm : s.mode = some m)
    (h : aligned 4 (s.effectiveAddress base off) = false ∨ allowedAddress m (s.effectiveAddress base off) = false) :
    execSc base rt off s = .next (takeException (.adES (s.effectiveAddress base off)) s) := by
  unfold execSc
  split
  · exact Access.complete_raise (memWrite_adES hm _ h) s _
  · exact Access.complete_raise (checkAddress_raise hm h) s _

theorem execSc_raise (hl : s.llBit = true) (h : memWrite (s.effectiveAddress base off) 4 (s.reg rt) s = .raise e) :
    execSc base rt off s = .next (takeException e s) := by
  rw [execSc, if_pos hl]
  exact Access.complete_raise h s _

end

/-! ## When a bus error stands in the way -/

/-- A line is there to hit, or it is not. -/
theorem dataHit_eq_false_iff {s : State} {va : Word} : s.dataHit va = false ↔ (s.dset va).find (lineTag va) = none := by
  rw [State.dataHit, Option.isSome_eq_false_iff, Option.isNone_iff_eq_none]

theorem storeFails_iff_of_cached {s : State} {va : Word} (hc : cachedAddress va = true) :
    s.storeFails va = true ↔ (s.dset va).find (lineTag va) = none ∧ s.busError .store (physicalLine va) 64 = true := by
  rw [State.storeFails, hc, Bool.true_and, Bool.and_eq_true, Bool.not_eq_true', dataHit_eq_false_iff]

theorem loadFails_iff_of_cached {s : State} {va : Word} (hc : cachedAddress va = true) (n : Nat) :
    s.loadFails va n = true ↔ (s.dset va).find (lineTag va) = none ∧ s.busError .load (physicalLine va) 64 = true := by
  rw [State.loadFails, if_pos hc, Bool.and_eq_true, Bool.not_eq_true', dataHit_eq_false_iff]

theorem storeFails_of_not_cached {s : State} {va : Word} (hc : cachedAddress va = false) : s.storeFails va = false := by
  rw [State.storeFails, hc, Bool.false_and, Bool.false_and]

theorem loadFails_of_not_cached {s : State} {va : Word} (hc : cachedAddress va = false) (n : Nat) :
    s.loadFails va n = s.busError .load (physical va) n := by
  rw [State.loadFails, if_neg (by rw [hc]; decide)]

/-- Settles O35: the checks come first and raise an address error, then the access raises DBE where its read fails. -/
theorem accessExceptions : Obligations.AccessExceptions := by
  unfold Obligations.AccessExceptions
  rintro s base rt off va m rfl hm
  refine ⟨fun h => ?half, fun h => ?word, fun h => ?segment, rfl, rfl, fun ⟨_, m', hm', hp⟩ => ?byteBus,
    fun ⟨hal, m', hm', hp⟩ => ?halfBus, fun ⟨hal, m', hm', hp⟩ => ?wordBus,
    fun hc => ⟨storeFails_iff_of_cached hc, loadFails_iff_of_cached hc⟩,
    fun hc => ⟨storeFails_of_not_cached hc, loadFails_of_not_cached hc⟩, rfl⟩
  case half =>
    have hbad : aligned 2 (s.effectiveAddress base off) = false ∨ allowedAddress m (s.effectiveAddress base off) = false :=
      h.imp_left fun h => by rw [aligned_two]; simp [h]
    have hr := memRead_adEL hm hbad
    exact ⟨load_raise rt hr _, load_raise rt hr _, store_raise rt (memWrite_adES hm _ hbad)⟩
  case word =>
    have hbad : aligned 4 (s.effectiveAddress base off) = false ∨ allowedAddress m (s.effectiveAddress base off) = false :=
      h.imp_left fun h => by rw [aligned_four]; simp [h]
    have hr := memRead_adEL hm hbad
    have hw (v : Word) := memWrite_adES hm v hbad
    exact ⟨load_raise rt hr _, execLl_raise rt hr, store_raise rt (hw _), execSc_adES rt hm hbad,
      fun hu => ⟨loadToCop_raise (z := .cp1) rt (by decide) hu hr, storeFromCop_raise (z := .cp1) rt (by decide) hu (hw _)⟩,
      fun hu => ⟨loadToCop_raise (z := .cp2) rt (by decide) hu hr, storeFromCop_raise (z := .cp2) rt (by decide) hu (hw _)⟩⟩
  case segment =>
    have hr := memRead_adEL (n := 1) hm (.inr h)
    exact ⟨load_raise rt hr _, load_raise rt hr _, loadPart_raise rt (memReadPart_adEL hm h) _,
      loadPart_raise rt (memReadPart_adEL hm h) _, store_raise rt (memWrite_adES hm _ (.inr h)),
      storePart_raise (memWritePart_adES hm _ h), storePart_raise (memWritePart_adES hm _ h)⟩
  case byteBus =>
    obtain ⟨hleft, hright⟩ := sameLine_parts s.bigEndian (s.effectiveAddress base off)
    refine ⟨fun hf => ?_, fun hf => loadPart_raise rt (memReadPart_dbe hm' hp hf) _,
      fun hf => loadPart_raise rt (memReadPart_dbe hm' hp hf) _, fun hf => ⟨?_, ?_, ?_⟩⟩
    · have hr := memRead_dbe hm' rfl hp hf
      exact ⟨load_raise rt hr _, load_raise rt hr _⟩
    · exact store_raise rt (memWrite_dbe hm' _ rfl hp hf)
    · exact storePart_raise (memWritePart_dbe hm' _ hp ((storeFails_congr hleft).trans hf))
    · exact storePart_raise (memWritePart_dbe hm' _ hp ((storeFails_congr hright).trans hf))
  case halfBus =>
    have ha : aligned 2 (s.effectiveAddress base off) = true := by rw [aligned_two]; simp [hal]
    refine ⟨fun hf => ?_, fun hf => store_raise rt (memWrite_dbe hm' _ ha hp hf)⟩
    have hr := memRead_dbe hm' ha hp hf
    exact ⟨load_raise rt hr _, load_raise rt hr _⟩
  case wordBus =>
    have ha : aligned 4 (s.effectiveAddress base off) = true := by rw [aligned_four]; simp [hal]
    refine ⟨fun hf => ?_, fun hf => ?_⟩
    · have hr := memRead_dbe hm' ha hp hf
      exact ⟨load_raise rt hr _, execLl_raise rt hr, fun hu => loadToCop_raise (z := .cp1) rt (by decide) hu hr,
        fun hu => loadToCop_raise (z := .cp2) rt (by decide) hu hr⟩
    · have hw (v : Word) := memWrite_dbe hm' v ha hp hf
      exact ⟨store_raise rt (hw _), fun hl => execSc_raise rt hl (hw _),
        fun hu => storeFromCop_raise (z := .cp1) rt (by decide) hu (hw _),
        fun hu => storeFromCop_raise (z := .cp2) rt (by decide) hu (hw _)⟩

end Sys2Proof.Machine
end

section
/-! PROOFS. A word stored and loaded again through the same virtual address (R116, R125). -/

namespace Sys2Proof.Machine

/-- The layout of a word in either byte order, put together in the same order, is the word. -/
theorem assemble_layOut (b : Bool) (v : Word) : assemble b (layOut b 4 v) = v := by
  cases b
  · exact leWord_leBytes v
  · simp only [assemble, layOut, if_true, List.reverse_reverse]
    exact leWord_leBytes v

/-- Bytes that have been stored read back. -/
theorem storeBytes_bytesAt {s t : State} {va : Word} {bs : List Byte} {x : Unit} (hw : va.toNat % 4 + bs.length ≤ 4)
    (h : storeBytes va bs s = .ok x t) : t.bytesAt va bs.length = bs := by
  have hf : s.storeFails va = false := by
    by_contra hf
    rw [storeBytes_raise bs (by simpa using hf)] at h
    cases h
  obtain ⟨u, -, hu, hbytes⟩ := storeBytes_ok s hw hf
  obtain rfl : u = t := by rw [hu] at h; cases h; rfl
  refine List.ext_getElem (by simp [State.bytesAt, length_addresses]) fun i _ hi => ?_
  simp only [State.bytesAt, List.getElem_map, getElem_addresses]
  exact hbytes i hi

/-- A word that has been written reads back, in the byte order in force. -/
theorem memWrite_bytesAt {s t : State} {va v : Word} {x : Unit} (h : memWrite va 4 v s = .ok x t) :
    t.bytesAt va 4 = layOut s.bigEndian 4 v := by
  obtain ⟨ha, h⟩ := checkAddress_bind_ok h
  have hb := storeBytes_bytesAt (by rw [length_layOut]; exact aligned_in_word (.inr (.inr rfl)) ha) h
  rwa [length_layOut] at hb

/-- The value that a word read delivers. -/
theorem memRead_value {s t : State} {va v : Word} (h : memRead va 4 s = .ok v t) :
    v = assemble s.bigEndian (s.bytesAt va 4) :=
  (memRead_next s (aligned_in_word (.inr (.inr rfl)) (checkAddress_bind_ok h).1) h).2.2

/-- What an SW that completes has done (R215). -/
theorem execSw_next {s t : State} {base rt : Reg} {off : Imm16} (h : exec (.sw base rt off) s = .next t)
    (ht : t.entered = false) :
    ∃ u, memWrite (s.effectiveAddress base off) 4 (s.reg rt) s = .ok () u ∧ t = u.retire .other := by
  rcases Access.complete_next s h with ⟨_, u, hu, rfl⟩ | ⟨e, -, rfl⟩
  · exact ⟨u, hu, rfl⟩
  · cases ht

/-- What an LW that completes has done (R209). -/
theorem execLw_next {s t : State} {base rt : Reg} {off : Imm16} (h : exec (.lw base rt off) s = .next t)
    (ht : t.entered = false) :
    ∃ v u, memRead (s.effectiveAddress base off) 4 s = .ok v u ∧ t = (u.setReg rt v).retire .other := by
  rcases Access.complete_next s h with ⟨v, u, hu, rfl⟩ | ⟨e, -, rfl⟩
  · exact ⟨v, u, hu, rfl⟩
  · cases ht

/-- Settles O36: the bytes that SW stores are those that LW reads, and both use the same byte order. -/
theorem loadAfterStore : Obligations.LoadAfterStore := by
  unfold Obligations.LoadAfterStore
  intro s t u base rt rd off hrd hsw ht hlw hu
  obtain ⟨t', hstore, rfl⟩ := execSw_next hsw ht
  obtain ⟨v, u', hload, rfl⟩ := execLw_next hlw hu
  have hside := memWrite_next s hstore
  have haddr : (t'.retire .other).effectiveAddress base off = s.effectiveAddress base off := by
    simp only [State.effectiveAddress, retire_reg, hside.reg]
  have horder : (t'.retire .other).bigEndian = s.bigEndian := by
    simp only [State.bigEndian, State.mode, retire_cp0, hside.cp0]
  have hbytes : (t'.retire .other).bytesAt (s.effectiveAddress base off) 4 = layOut s.bigEndian 4 (s.reg rt) :=
    (memWrite_bytesAt hstore : t'.bytesAt _ 4 = _)
  rw [haddr] at hload
  calc ((u'.setReg rd v).retire .other).reg rd
    _ = v := u'.reg_setReg_same v hrd
    _ = assemble s.bigEndian (layOut s.bigEndian 4 (s.reg rt)) := by rw [memRead_value hload, horder, hbytes]
    _ = s.reg rt := assemble_layOut _ _

end Sys2Proof.Machine
end

section
/-! PROOFS. Instruction fetch: what it delivers and fills, and the exceptions that it raises (R84, R101, R109, R120). -/

namespace Sys2Proof.Machine

/-! ## The word fetched -/

/-- Four bytes in little-endian order as the word of an instruction (R84). -/
def wordOfBytes (f : Word → Byte) (va : Word) : Word := f (va + 3) ++ f (va + 2) ++ f (va + 1) ++ f va

/-- The bytes of an instruction, put together in little-endian order. -/
theorem assemble_addresses (f : Word → Byte) (va : Word) : assemble false ((addresses va 4).map f) = wordOfBytes f va := by
  have h2 : va + 1 + 1 = va + 2 := by rw [BitVec.add_assoc]; rfl
  have h3 : va + 2 + 1 = va + 3 := by rw [BitVec.add_assoc]; rfl
  simp only [addresses, List.map_cons, List.map_nil, h2, h3]
  exact leWord_four _ _ _ _

/-- The bytes of an aligned word lie at consecutive physical addresses. -/
theorem wordOfBytes_physical {f : Word → Byte} {g : Nat → Byte} {va : Word} (ha : va.toNat % 4 = 0)
    (h : ∀ a, SameLine a va → f a = g (physical a)) :
    wordOfBytes f va =
      g (physical va + 3) ++ g (physical va + 2) ++ g (physical va + 1) ++ g (physical va) := by
  have hbyte (i : Nat) (hi : i < 4) : f (va + BitVec.ofNat 32 i) = g (physical va + i) := by
    rw [h _ (sameLine_add (by omega)), physical_add (by omega)]
  have h3 : f (va + 3) = g (physical va + 3) := hbyte 3 (by omega)
  have h2 : f (va + 2) = g (physical va + 2) := hbyte 2 (by omega)
  have h1 : f (va + 1) = g (physical va + 1) := hbyte 1 (by omega)
  rw [wordOfBytes, h3, h2, h1, h va ⟨rfl⟩]

/-- A fetch at an aligned allowed pc, in little-endian order, delivers the bytes at pc (R109). -/
theorem fetch_of_fetchBytes {s t : State} {m : Mode} {f : Word → Byte} (hm : s.mode = some m)
    (hp : allowedAddress m s.pc = true) (ha : s.pc.toNat % 4 = 0) (hb : s.bigEndian = false)
    (h : fetchBytes s.pc s = .ok ((addresses s.pc 4).map f) t) : fetch s = .ok (wordOfBytes f s.pc) t := by
  have hal : aligned 4 s.pc = true := by rw [aligned_four]; simp [ha]
  have hr : s.fetchReversed = false := by rw [State.fetchReversed, hb, Bool.false_and]
  rw [fetch, bind_checkAddress_ok hm hal hp, h, Access.bind, hr, assemble_addresses]

theorem fetchBytes_of_not_cached {s : State} {va : Word} (hc : cachedAddress va = false)
    (hb : s.busError .fetch (physical va) 4 = false) :
    fetchBytes va s = .ok ((addresses va 4).map fun a => s.physByte (physical a)) s := by
  simp [fetchBytes, hc, hb]

theorem fetchBytes_of_hit {s : State} {va : Word} {w : WaySel} (hc : cachedAddress va = true)
    (hf : (s.iset va).find (lineTag va) = some w) :
    fetchBytes va s = .ok ((addresses va 4).map (lineByte ((s.iset va).way w).data)) (s.touchI va w) := by
  simp [fetchBytes, hc, icacheAccess, hf, Access.bind, State.touchI]

theorem fetchBytes_of_miss {s : State} {va : Word} (hc : cachedAddress va = true)
    (hf : (s.iset va).find (lineTag va) = none) (hb : s.busError .fetch (physicalLine va) 64 = false) :
    fetchBytes va s = .ok ((addresses va 4).map (lineByte (s.env.readLine s.mem (physicalLine va))))
      ((s.fillIset va (s.victimI va)).touchI va (s.victimI va)) := by
  simp [fetchBytes, hc, icacheAccess, icacheFill, hf, hb, Access.bind, State.touchI, State.fillIset]

theorem sameOtherIsets_touchI (s : State) (va : Word) (w : WaySel) : SameOtherIsets va s (s.touchI va w) :=
  fun a ha => by rw [State.touchI, State.iset_setIset, if_neg ha]

/-! ## The exceptions of a fetch -/

/-- A pc that is misaligned or not allowed raises AdEL (R101). -/
theorem fetch_adEL {s : State} {m : Mode} (hm : s.mode = some m) (h : s.pc.toNat % 4 ≠ 0 ∨ allowedAddress m s.pc = false) :
    fetch s = .raise (.adEL s.pc) :=
  bind_checkAddress_raise hm (h.imp_left fun h => by rw [aligned_four]; simp [h]) _

theorem fetch_of_fetchBytes_raise {s : State} {m : Mode} {e : GeneralException} (hm : s.mode = some m)
    (hp : allowedAddress m s.pc = true) (ha : s.pc.toNat % 4 = 0) (h : fetchBytes s.pc s = .raise e) :
    fetch s = .raise e := by
  have hal : aligned 4 s.pc = true := by rw [aligned_four]; simp [ha]
  rw [fetch, bind_checkAddress_ok hm hal hp, h, Access.bind]

theorem fetchBytes_ibe_of_not_cached {s : State} {va : Word} (hc : cachedAddress va = false)
    (hb : s.busError .fetch (physical va) 4 = true) : fetchBytes va s = .raise .ibe := by
  simp [fetchBytes, hc, hb]

theorem fetchBytes_ibe_of_miss {s : State} {va : Word} (hc : cachedAddress va = true)
    (hf : (s.iset va).find (lineTag va) = none) (hb : s.busError .fetch (physicalLine va) 64 = true) :
    fetchBytes va s = .raise .ibe := by
  simp [fetchBytes, hc, icacheAccess, icacheFill, hf, hb, Access.bind]

/-- An exception of the fetch is taken before any other of the step (R25 step 3). -/
theorem step_of_fetch_raise {s : State} {m : Mode} {e : GeneralException} (he : s.event = none)
    (hm : s.begin.mode = some m) (hf : fetch s.begin = .raise e) : step s = .next (takeException e s.begin).endStep := by
  simp only [step, cycle, runStep, he, runInstruction, hm, hf, raise, onNext]

/-! ## The bus -/

theorem physByte_of_holds {s : State} {a : Nat} (h : (s.env.region a).kind.holds = true) : s.physByte a = s.mem.read a :=
  s.env.readByte_of_holds s.mem h

theorem physByte_of_not_holds {s : State} {a : Nat} (h : (s.env.region a).kind.holds = false) :
    s.physByte a = Config.outsideByte a s.env.time := by
  simp [State.physByte, Environment.readByte, h]

/-- Settles O54: the bytes come from the bus, from the line that hits or from the line just filled, and a fetch that raises ends
the step. -/
theorem instructionFetch : Obligations.InstructionFetch := by
  unfold Obligations.InstructionFetch
  intro s m
  refine ⟨fun hm hp ha hb => ⟨fun hc hbus => ?_, fun w hc hf => ?_, fun hc hf hbus => ?_⟩,
    fun a => ⟨fun hk => ?_, fun hk => ?_⟩, fun he hm => ⟨fun h => ?_, fun ha hp hc hbus => ?_, fun ha hp hc hf hbus => ?_⟩⟩
  · rw [fetch_of_fetchBytes hm hp ha hb (fetchBytes_of_not_cached hc hbus),
      wordOfBytes_physical (g := s.physByte) ha fun _ _ => rfl]
  · refine ⟨_, fetch_of_fetchBytes hm hp ha hb (fetchBytes_of_hit hc hf), rfl, sameOtherIsets_touchI s s.pc w, ?_⟩
    rw [State.touchI, State.iset_setIset_same]
    exact accessedWay_touch _ w
  · have hfetch := fetch_of_fetchBytes hm hp ha hb (fetchBytes_of_miss hc hf hbus)
    rw [wordOfBytes_physical (g := s.physByte) ha fun a hl => lineByte_readLine s s.pc a hl] at hfetch
    exact ⟨_, _, hfetch, rfl, filledI_fill s s.pc (fillsWay_victim _ _)⟩
  · exact physByte_of_holds (by rcases hk with hk | hk <;> rw [hk] <;> rfl)
  · exact physByte_of_not_holds (by rcases hk with hk | hk <;> rw [hk] <;> rfl)
  · exact ⟨step_of_fetch_raise he hm (fetch_adEL hm h), rfl⟩
  · exact step_of_fetch_raise he hm (fetch_of_fetchBytes_raise hm hp ha (fetchBytes_ibe_of_not_cached hc hbus))
  · exact step_of_fetch_raise he hm (fetch_of_fetchBytes_raise hm hp ha (fetchBytes_ibe_of_miss hc hf hbus))

end Sys2Proof.Machine
end

section
/-! PROOFS. The encoder and the decoder against each other (30_encoding.md R151 to R157). A word is the word of a layout
exactly if its fields are the layout's, so each row of the opcode table is settled by comparing fields. -/

namespace Sys2Proof

/-! ## The words of the layouts, by their fields -/

section Layouts

variable {w : Word} {op func : BitVec 6} {rs rt rd sa : BitVec 5}

/-- Two adjacent fields of a word make the field that spans both. -/
theorem fields_append (w : Word) (k n m : Nat) :
    w.extractLsb' (k + m) n ++ w.extractLsb' k m = w.extractLsb' k (n + m) :=
  BitVec.extractLsb'_append_extractLsb'_eq_extractLsb' rfl

theorem encI_eq_iff {imm : Imm16} :
    encI op rs rt imm = w ↔ fOp w = op ∧ fRs w = rs ∧ fRt w = rt ∧ fImm w = imm := by
  constructor
  · rintro rfl
    simp
  · rintro ⟨rfl, rfl, rfl, rfl⟩
    unfold encI fOp fRs fRt fImm
    rw [fields_append w 21 6 5, fields_append w 16 11 5, fields_append w 0 16 16, extract_all]

theorem encR_eq_iff :
    encR op rs rt rd sa func = w ↔
      fOp w = op ∧ fRs w = rs ∧ fRt w = rt ∧ fRd w = rd ∧ fSa w = sa ∧ fFunc w = func := by
  constructor
  · rintro rfl
    simp
  · rintro ⟨rfl, rfl, rfl, rfl, rfl, rfl⟩
    unfold encR fOp fRs fRt fRd fSa fFunc
    rw [fields_append w 21 6 5, fields_append w 16 11 5, fields_append w 11 16 5, fields_append w 6 21 5,
      fields_append w 0 26 6, extract_all]

theorem encJ_eq_iff {target : BitVec 26} : encJ op target = w ↔ fOp w = op ∧ fTarget w = target := by
  constructor
  · rintro rfl
    simp
  · rintro ⟨rfl, rfl⟩
    unfold encJ fOp fTarget
    rw [fields_append w 0 6 26, extract_all]

theorem encCode_eq_iff {code : BitVec 20} :
    encCode code func = w ↔ fOp w = 0#6 ∧ fCode w = code ∧ fFunc w = func := by
  constructor
  · rintro rfl
    simp
  · rintro ⟨hop, rfl, rfl⟩
    unfold encCode fCode fFunc
    rw [← hop, fOp, fields_append w 6 6 20, fields_append w 0 26 6, extract_all]

/-- Bit 25 tells a coprocessor operation from a transfer or a branch (GK10). -/
theorem encCop_eq_iff {cofun : BitVec 25} :
    encCop op cofun = w ↔ fOp w = op ∧ w[25] = true ∧ fCofun w = cofun := by
  constructor
  · rintro rfl
    simp
  · rintro ⟨rfl, hbit, rfl⟩
    have hbit : w.extractLsb' 25 1 = 1#1 := by
      ext i hi
      obtain rfl : i = 0 := by omega
      simpa using hbit
    unfold encCop fOp fCofun
    rw [← hbit, fields_append w 25 6 1, fields_append w 0 7 25, extract_all]

/-- Bits 10:0 are zero exactly if the two lowest fields of the R-type layout are. -/
theorem low11_eq_zero_iff : w.extractLsb' 0 11 = 0#11 ↔ fSa w = 0#5 ∧ fFunc w = 0#6 := by
  rw [show w.extractLsb' 0 11 = fSa w ++ fFunc w from (fields_append w 0 5 6).symm]
  constructor
  · intro h
    have hsa := extract_all (fSa w)
    rw [← extract_high (fSa w) (fFunc w) 0, h] at hsa
    have hfunc := extract_low (fSa w) (fFunc w)
    rw [h] at hfunc
    exact ⟨hsa.symm, hfunc.symm⟩
  · rintro ⟨hsa, hfunc⟩
    rw [hsa, hfunc]
    rfl

end Layouts

/-! ## The two selector fields (R37, R386) -/

theorem cp0Reg_cp0Number {r : Cp0Reg} (h : r.wellFormed = true) : cp0Reg (cp0Number r) = r := by
  cases r with
  | reserved n =>
    have hn : ∀ n : Reg, (Cp0Reg.reserved n).wellFormed = true → cp0Reg n = .reserved n := by decide
    exact hn n h
  | _ => rfl

theorem cp0Number_cp0Reg (n : Reg) : cp0Number (cp0Reg n) = n := by
  unfold cp0Reg
  split <;> rfl

theorem wellFormed_cp0Reg : ∀ n : Reg, (cp0Reg n).wellFormed = true := by decide

theorem cacheOp_cacheCode {op : CacheOp} (h : op.wellFormed = true) : cacheOp (cacheCode op) = op := by
  cases op with
  | blank f =>
    have hf : ∀ f : BitVec 5, (CacheOp.blank f).wellFormed = true → cacheOp f = .blank f := by decide
    exact hf f h
  | _ => rfl

theorem cacheCode_cacheOp (f : BitVec 5) : cacheCode (cacheOp f) = f := by
  unfold cacheOp
  split <;> rfl

theorem wellFormed_cacheOp : ∀ f : BitVec 5, (cacheOp f).wellFormed = true := by decide

/-! ## Decoding what is encoded -/

/-- One case for each table of 30_encoding.md that the decoder consults: the fields that select the row in it are, by the
lemmas of Laws/Decode on the layouts, those that the encoder wrote. -/
theorem decode_encode {i : Instr} (h : i.wellFormed = true) : decode (encode i) = .ok i := by
  cases i with
  | lb | lbu | lh | lhu | lwl | lwr | ll | lw | sb | sh | swl | swr | sc | sw | addi | addiu | slti | sltiu | andi | ori
  | xori | beq | bne | beql | bnel | lwc1 | swc1 | lwc2 | swc2 | lwc3 | swc3 | j | jal =>
    simp [encode, decode]
  | lui | blez | bgtz | blezl | bgtzl => simp [encode, decode, blank]
  | cache base op off => simp [encode, decode, cacheOp_cacheCode h]
  | add | addu | sub | subu | slt | sltu | and | or | xor | nor | sll | srl | sra | sllv | srlv | srav | mult | multu | div
  | divu | mfhi | mflo | mthi | mtlo | madd | maddu | msub | msubu | max | min | movn | movz | rotr | rotrv | clz | clo
  | jr | jalr | syscall | brk | sync =>
    simp [encode, decode, decodeSpecial, blank]
  | bltz | bgez | bltzal | bgezal | bltzl | bgezl | bltzall | bgezall => simp [encode, decode, decodeRegimm]
  | ext | ins => simp [encode, decode, decodeSpecial3]
  | seb | seh | wsbh | wsbw | bitrev => simp [encode, decode, decodeSpecial3, decodeBshfl, blank]
  | mfc0 rt rd | mtc0 rt rd => simp [encode, decode, decodeCop0, blank, cp0Reg_cp0Number h]
  | eret => rfl
  | mtc1 | mfc1 | ctc1 | cfc1 | cop1 | bc1f | bc1t | bc1fl | bc1tl => simp [encode, decode, decodeCop1, blank]
  | mtc2 | mfc2 | ctc2 | cfc2 | cop2 | bc2f | bc2t | bc2fl | bc2tl => simp [encode, decode, decodeCop2, blank]
  | mtc3 | mfc3 | ctc3 | cfc3 | cop3 | bc3f | bc3t | bc3fl | bc3tl => simp [encode, decode, decodeCop3, blank]

/-- Settles O1: row by row, the decoder finds the fields that the encoder wrote. -/
theorem decodeOfEncode : Obligations.DecodeOfEncode := by
  unfold Obligations.DecodeOfEncode
  exact fun _ => decode_encode

/-! ## Encoding what is decoded -/

/-- If the decoder's answer `r` for `w` is an instruction, it is well-formed and `w` is its encoding. -/
def EncodedBy (w : Word) (r : Except Undecodable Instr) : Prop :=
  ∀ i, r = .ok i → i.wellFormed = true ∧ encode i = w

namespace EncodedBy

variable {w : Word} {i : Instr}

theorem error (u : Undecodable) : EncodedBy w (.error u) := fun _ h => nomatch h

theorem ok (hf : i.wellFormed = true) (he : encode i = w) : EncodedBy w (.ok i) :=
  fun _ hj => Except.ok.inj hj ▸ ⟨hf, he⟩

theorem blank {z : Bool} (hf : i.wellFormed = true) (he : z = true → encode i = w) : EncodedBy w (blank z i) := by
  cases z with
  | true => exact ok hf (he rfl)
  | false => exact error _

theorem ite {c : Prop} [Decidable c] {a b : Except Undecodable Instr} (ha : c → EncodedBy w a) (hb : ¬c → EncodedBy w b) :
    EncodedBy w (if c then a else b) := by
  split
  · next hc => exact ha hc
  · next hc => exact hb hc

end EncodedBy

section Tables

variable {w : Word}

/-! One theorem for each table: in every row, the fields that selected it and those found blank are the encoder's. -/

theorem encodedBy_decodeSpecial (hop : fOp w = 0x00#6) : EncodedBy w (decodeSpecial w) := by
  unfold decodeSpecial
  generalize hf : fFunc w = f
  split
  case h_12 | h_15 => -- SRL and ROTR, SRLV and ROTRV (GK11)
    exact .ite (fun h => .ok rfl (encR_eq_iff.2 (by simpa [hop, hf, and_assoc] using h)))
      fun _ => .blank rfl fun h => encR_eq_iff.2 (by simpa [hop, hf, and_assoc] using h)
  -- SYSCALL and BREAK
  case h_37 | h_38 => exact .ok rfl (encCode_eq_iff.2 ⟨hop, rfl, hf⟩)
  case h_40 => exact .error _
  all_goals exact .blank rfl fun h => encR_eq_iff.2 (by simpa [hop, hf, and_assoc] using h)

theorem encodedBy_decodeRegimm (hop : fOp w = 0x01#6) : EncodedBy w (decodeRegimm w) := by
  unfold decodeRegimm
  generalize hrt : fRt w = c
  split
  case h_9 => exact .error _
  all_goals exact .ok rfl (encI_eq_iff.2 ⟨hop, rfl, hrt, rfl⟩)

theorem encodedBy_decodeBshfl (hop : fOp w = 0x1F#6) (hf : fFunc w = 0x20#6) : EncodedBy w (decodeBshfl w) := by
  unfold decodeBshfl
  generalize hsa : fSa w = c
  split
  case h_6 => exact .error _
  all_goals exact .blank rfl fun h => encR_eq_iff.2 (by simpa [hop, hf, hsa] using h)

theorem encodedBy_decodeSpecial3 (hop : fOp w = 0x1F#6) : EncodedBy w (decodeSpecial3 w) := by
  unfold decodeSpecial3
  generalize hf : fFunc w = f
  split
  case h_3 => exact encodedBy_decodeBshfl hop hf
  case h_4 => exact .error _
  all_goals exact .ok rfl (encR_eq_iff.2 ⟨hop, rfl, rfl, rfl, rfl, hf⟩)

theorem encodedBy_decodeCop0 (hop : fOp w = 0x10#6) : EncodedBy w (decodeCop0 w) := by
  unfold decodeCop0
  generalize hrs : fRs w = c
  split
  case h_3 => exact .ite (fun h => .ok rfl h.symm) fun _ => .error _
  case h_4 => exact .error _
  all_goals
    refine .blank (wellFormed_cp0Reg _) fun h => encR_eq_iff.2 ?_
    simpa [hop, hrs, cp0Number_cp0Reg, low11_eq_zero_iff] using h

/-- The major opcode of a coprocessor's words (R157). -/
def copOpcode : Cop → BitVec 6
  | .cp1 => 0x11
  | .cp2 => 0x12
  | .cp3 => 0x13

/-- The decoder of a coprocessor's words (R157). -/
def copTable : Cop → Word → Except Undecodable Instr
  | .cp1 => decodeCop1
  | .cp2 => decodeCop2
  | .cp3 => decodeCop3

/-- The three coprocessors' tables are one table (R157), with each coprocessor's own instructions in it. -/
theorem encodedBy_copTable {z : Cop} (hop : fOp w = copOpcode z) : EncodedBy w (copTable z w) := by
  cases z
  all_goals
    refine .ite (fun h => .ok rfl (encCop_eq_iff.2 ⟨hop, h, rfl⟩)) fun _ => ?_
    generalize hrs : fRs w = c
    split
    case h_5 =>
      generalize hrt : fRt w = d
      split
      case h_5 => exact .error _
      all_goals exact .ok rfl (encI_eq_iff.2 ⟨hop, hrs, hrt, rfl⟩)
    case h_6 => exact .error _
    all_goals
      refine .blank rfl fun h => encR_eq_iff.2 ?_
      simpa [show fOp w = _ from hop, hrs, copOpcode, low11_eq_zero_iff] using h

end Tables

theorem encodedBy_decode (w : Word) : EncodedBy w (decode w) := by
  unfold decode
  generalize hop : fOp w = op
  split
  case h_1 => exact encodedBy_decodeSpecial hop
  case h_2 => exact encodedBy_decodeRegimm hop
  case h_3 => exact encodedBy_decodeCop0 hop
  case h_4 => exact encodedBy_copTable (z := .cp1) hop
  case h_5 => exact encodedBy_copTable (z := .cp2) hop
  case h_6 => exact encodedBy_copTable (z := .cp3) hop
  case h_7 => exact encodedBy_decodeSpecial3 hop
  -- LUI and the branches on one register, which have a blank field
  case h_29 | h_34 | h_35 | h_38 | h_39 => exact .blank rfl fun h => encI_eq_iff.2 (by simpa [hop] using h)
  -- J and JAL
  case h_30 | h_31 => exact .ok rfl (encJ_eq_iff.2 ⟨hop, rfl⟩)
  -- CACHE
  case h_46 => exact .ok (wellFormed_cacheOp _) (encI_eq_iff.2 ⟨hop, rfl, (cacheCode_cacheOp _).symm, rfl⟩)
  case h_47 => exact .error _
  all_goals exact .ok rfl (encI_eq_iff.2 ⟨hop, rfl, rfl, rfl⟩)

/-- Settles O2: in every row of the decoder's tables the fields of the word are those that the encoder writes. -/
theorem encodeOfDecode : Obligations.EncodeOfDecode := by
  unfold Obligations.EncodeOfDecode
  exact encodedBy_decode

end Sys2Proof
end

section
/-! PROOFS. A word of no table row (R160, R350): the usable check of its class, then RI or a refusal. -/

namespace Sys2Proof.Machine

variable {s : State} {w : Word} {u : Undecodable} {k : Result}

/-! ## The usable check of each coprocessor (R350) -/

/-- CP0 is not usable outside kernel mode with CU0 = 0. -/
theorem requireCp0_unusable (hc : s.cp0.status.cu.getLsbD 0 = false)
    (hm : s.mode = some .user ∨ s.mode = some .supervisor) : requireCp0 s k = raise (.cpU 0) s := by
  unfold requireCp0
  rw [hc]
  rcases hm with hm | hm <;> rw [hm] <;> rfl

theorem requireCop_eq_ite {z : Cop} (hz : z ≠ .cp3) :
    requireCop z s k = if s.copUsable z = true then k else raise (.cpU (copNumber z)) s := by
  unfold requireCop
  cases z with
  | cp1 | cp2 => rfl
  | cp3 => exact absurd rfl hz

theorem requireCop_cp3 :
    requireCop .cp3 s k = if s.copUsable .cp3 = true then .refused .cop3Absent else raise (.cpU 3) s := rfl

/-! ## The class of a word that no row matches -/

/-- LWCz, SWCz and CACHE leave no word of their major opcode undecoded. -/
theorem fOp_not_mem_of_error (h : decode w = .error u) :
    fOp w ∉ [0x31#6, 0x39#6, 0x32#6, 0x3A#6, 0x33#6, 0x3B#6, 0x2F#6] := by
  intro hm
  simp only [List.mem_cons, List.not_mem_nil, or_false] at hm
  rcases hm with hop | hop | hop | hop | hop | hop | hop <;> simp [decode, hop] at h

theorem runWord_of_error (h : decode w = .error u) : runWord w s = unmatchedWord w s := by
  rw [runWord, h]

theorem unmatchedWord_cp0 (h : fOp w = 0x10#6) : unmatchedWord w s = requireCp0 s (reservedWord w s) := by
  simp [unmatchedWord, isCp0Class, h]

theorem unmatchedWord_cop {z : Cop} (h : fOp w = copOpcode z) :
    unmatchedWord w s = requireCop z s (reservedWord w s) := by
  cases z <;> simp [unmatchedWord, isCp0Class, copClass, show fOp w = _ from h, copOpcode]

theorem unmatchedWord_other (h : decode w = .error u) (h0 : fOp w ≠ 0x10#6) (h1 : fOp w ≠ 0x11#6) (h2 : fOp w ≠ 0x12#6)
    (h3 : fOp w ≠ 0x13#6) : unmatchedWord w s = reservedWord w s := by
  have hrow := fOp_not_mem_of_error h
  simp only [List.mem_cons, List.not_mem_nil, or_false, not_or] at hrow
  obtain ⟨hlw1, hsw1, hlw2, hsw2, hlw3, hsw3, hcache⟩ := hrow
  have hclass : copClass w = none := by
    unfold copClass
    split
    case h_10 => rfl
    all_goals contradiction
  have hcp0 : isCp0Class w = false := by simp [isCp0Class, h0, hcache]
  rw [unmatchedWord, hcp0, hclass]
  rfl

end Sys2Proof.Machine

namespace Sys2Proof.Laws

open Machine

/-- Settles O5: the major opcode gives the class, and the usable check of the class comes before the reserved set. -/
theorem unmatchedWord : Obligations.UnmatchedWord := by
  unfold Obligations.UnmatchedWord
  rintro s w u r h rfl
  rw [runWord_of_error h]
  refine ⟨fun hop hc hm => ?_, fun hop hu => ?_, fun hop => ?_, fun hop => ?_, fun hop => ?_, unmatchedWord_other h⟩
  · rw [unmatchedWord_cp0 hop, requireCp0_unusable hc hm, raise]
  · rw [unmatchedWord_cp0 hop, requireCp0_usable s hu]
    rfl
  · rw [unmatchedWord_cop (z := .cp1) hop, requireCop_eq_ite (by decide)]
    rfl
  · rw [unmatchedWord_cop (z := .cp2) hop, requireCop_eq_ite (by decide)]
    rfl
  · rw [unmatchedWord_cop (z := .cp3) hop, requireCop_cp3]
    rfl

end Sys2Proof.Laws
end

section
/-! PROOFS. The bytes of words: what is put together, laid out, shifted and merged, byte by byte (R82, R83, R206, R207). -/

namespace Sys2Proof.Machine

/-! ## The bytes of a word -/

theorem getElem_lowMask (n : Nat) {i : Nat} (h : i < 32) : (lowMask n)[i] = decide (i < n) := by
  rw [lowMask, ← BitVec.getLsbD_eq_getElem, BitVec.getLsbD_ofNat, Nat.testBit_two_pow_sub_one, decide_eq_true h,
    Bool.true_and]

/-- A word is its four bytes. -/
theorem eq_of_bytes_eq {v w : Word} (h : ∀ k, k < 4 → v.extractLsb' (8 * k) 8 = w.extractLsb' (8 * k) 8) : v = w := by
  ext i hi
  have hb := congrArg (·.getLsbD (i % 8)) (h (i / 8) (by omega))
  have hr : i % 8 < 8 := by omega
  have he : 8 * (i / 8) + i % 8 = i := by omega
  simpa only [BitVec.getLsbD_extractLsb', hr, he, decide_true, Bool.true_and, BitVec.getLsbD_eq_getElem hi] using hb

theorem byte_ushiftRight (v : Word) (m k : Nat) :
    (v >>> (8 * m)).extractLsb' (8 * k) 8 = v.extractLsb' (8 * (m + k)) 8 := by
  ext i hi
  simp only [BitVec.getElem_extractLsb', BitVec.getLsbD_ushiftRight]
  congr 1
  omega

/-- The value of bytes, byte by byte. -/
theorem byte_leWord (bs : List Byte) {k : Nat} (hk : k < 4) : (leWord bs).extractLsb' (8 * k) 8 = bs.getD k 0 := by
  induction bs generalizing k with
  | nil => exact BitVec.extractLsb'_zero
  | cons b bs ih =>
    cases k with
    | zero =>
      ext i hi
      have h32 : i < 32 := by omega
      simp [leWord, BitVec.getElem_extractLsb', hi, h32, BitVec.getLsbD_eq_getElem]
    | succ k =>
      rw [List.getD_cons_succ, ← ih (by omega)]
      ext i hi
      have h32 : 8 * (k + 1) + i < 32 := by omega
      have hb : b.getLsbD (8 * (k + 1) + i) = false := BitVec.getLsbD_of_ge _ _ (by omega)
      have he : 8 * (k + 1) + i - 8 = 8 * k + i := by omega
      have hn : ¬8 * (k + 1) + i < 8 := by omega
      simp only [leWord, BitVec.getElem_extractLsb', BitVec.getLsbD_or, BitVec.getLsbD_shiftLeft, BitVec.getLsbD_setWidth,
        h32, hb, he, hn, decide_true, decide_false, Bool.not_false, Bool.true_and, Bool.and_false, Bool.or_false]

/-! ## Bytes in the byte order in force (R82, R83) -/

/-- How far from the lowest of `n` addresses byte `k` of the value at them lies. -/
def byteOffset (bigEndian : Bool) (n k : Nat) : Nat := if bigEndian then n - 1 - k else k

theorem byteOffset_little (n k : Nat) : byteOffset false n k = k := rfl

theorem byteOffset_big (n k : Nat) : byteOffset true n k = n - 1 - k := rfl

/-- The value read from `n` addresses, byte by byte. -/
theorem byte_assemble_addresses (b : Bool) (f : Word → Byte) (va : Word) {n k : Nat} (hk : k < 4) :
    (assemble b ((addresses va n).map f)).extractLsb' (8 * k) 8 =
      if k < n then f (va + BitVec.ofNat 32 (byteOffset b n k)) else 0 := by
  rw [assemble, byte_leWord _ hk, List.getD_eq_getElem?_getD]
  by_cases hn : k < n
  · cases b <;>
      simp [hn, byteOffset, length_addresses, getElem_addresses]
  · cases b <;> simp [hn, length_addresses]

/-- The bytes of a value in address order. -/
theorem getElem_layOut (b : Bool) (n : Nat) (v : Word) {i : Nat} (h : i < (layOut b n v).length) :
    (layOut b n v)[i] = v.extractLsb' (8 * byteOffset b n i) 8 := by
  cases b <;> simp [layOut, leBytes_eq_map, byteOffset]

/-! ## Merging a part of a word (R206, R207) -/

theorem byte_mergeLeft (v old : Word) {n k : Nat} (hk : k < 4) :
    (mergeLeft n v old).extractLsb' (8 * k) 8 =
      if 4 - n ≤ k then v.extractLsb' (8 * (k - (4 - n))) 8 else old.extractLsb' (8 * k) 8 := by
  split
  · next hn =>
    ext i hi
    have h32 : 8 * k + i < 32 := by omega
    have hlow : ¬8 * k + i < 8 * (4 - n) := by omega
    have he : 8 * k + i - 8 * (4 - n) = 8 * (k - (4 - n)) + i := by omega
    have hlt : 8 * (k - (4 - n)) + i < 32 := by omega
    simp [mergeLeft, getElem_lowMask, h32, hlow, he, BitVec.getLsbD_eq_getElem hlt]
  · next hn =>
    ext i hi
    have h32 : 8 * k + i < 32 := by omega
    have hlow : 8 * k + i < 8 * (4 - n) := by omega
    simp [mergeLeft, getElem_lowMask, h32, hlow]

/-- The bytes of `v` from the `n`th on have to be zero, as those of a value of `n` bytes are. -/
theorem byte_mergeRight (v old : Word) {n k : Nat} (hk : k < 4) (hv : n ≤ k → v.extractLsb' (8 * k) 8 = 0) :
    (mergeRight n v old).extractLsb' (8 * k) 8 =
      if k < n then v.extractLsb' (8 * k) 8 else old.extractLsb' (8 * k) 8 := by
  split
  · next hn =>
    ext i hi
    have h32 : 8 * k + i < 32 := by omega
    have hlow : 8 * k + i < 8 * n := by omega
    simp [mergeRight, getElem_lowMask, h32, hlow]
  · next hn =>
    ext i hi
    have h32 : 8 * k + i < 32 := by omega
    have hlow : ¬8 * k + i < 8 * n := by omega
    have hz : v[8 * k + i] = false := by
      simpa [hi, h32] using congrArg (·.getLsbD i) (hv (by omega))
    simp [mergeRight, getElem_lowMask, h32, hlow, hz]

end Sys2Proof.Machine

namespace Sys2Proof

/-- A word decodes to the instruction whose encoding it is. -/
theorem decode_of_encode_eq {w : Word} {i : Instr} (hf : i.wellFormed = true) (h : encode i = w) : decode w = .ok i :=
  h ▸ decode_encode hf

/-- Settles O3: each word of the spec is the encoding of its instruction. -/
theorem decodedWords : Obligations.DecodedWords := by
  unfold Obligations.DecodedWords
  exact ⟨decode_of_encode_eq rfl rfl, decode_of_encode_eq rfl rfl, decode_of_encode_eq rfl rfl, decode_of_encode_eq rfl rfl,
    decode_of_encode_eq rfl rfl, decode_of_encode_eq rfl rfl, decode_of_encode_eq rfl rfl, decode_of_encode_eq rfl rfl,
    decode_of_encode_eq rfl rfl, decode_of_encode_eq rfl rfl, decode_of_encode_eq rfl rfl, decode_of_encode_eq rfl rfl,
    decode_of_encode_eq rfl rfl, decode_of_encode_eq rfl rfl⟩

end Sys2Proof
end

section
/-! PROOFS. The loads and stores that complete (R200 to R215): what they deliver, and what they leave on the data side (R103,
R104, R111 to R116). -/

namespace Sys2Proof.Machine

/-! ## What follows the access leaves the data side alone -/

theorem DataRead.of_sameMemory {va : Word} {s t u : State} (h : DataRead va s t) (g : SameMemory t u) : DataRead va s u := by
  obtain ⟨hm, -, hd, hw, hs⟩ := g
  have hset (a : Word) : u.dset a = t.dset a := by simp only [State.dset, hd]
  obtain ⟨stores, direct, hit, miss⟩ := h
  simp only [FilledD, SameOtherDsets, ← hm, ← hd, ← hw, ← hs, ← hset] at stores direct hit miss
  exact ⟨stores, direct, hit, miss⟩

theorem DataWritten.of_sameMemory {va : Word} {bs : List Byte} {s t u : State} (h : DataWritten va bs s t)
    (g : SameMemory t u) : DataWritten va bs s u := by
  obtain ⟨hm, -, hd, hw, hs⟩ := g
  have hset (a : Word) : u.dset a = t.dset a := by simp only [State.dset, hd]
  obtain ⟨direct, cached, hit, miss⟩ := h
  simp only [SameOtherDsets, ← hm, ← hd, ← hw, ← hs, ← hset] at direct cached hit miss
  exact ⟨direct, cached, hit, miss⟩

theorem sameMemory_setReg_retire (s : State) (rt : Reg) (v : Word) (k : Retired) :
    SameMemory s ((s.setReg rt v).retire k) := ⟨rfl, rfl, rfl, rfl, rfl⟩

theorem sameMemory_retire (s : State) (k : Retired) : SameMemory s (s.retire k) := ⟨rfl, rfl, rfl, rfl, rfl⟩

theorem Access.complete_ok {α : Type} {a : Access α} {v : α} {u : State} (h : a = .ok v u) (s : State)
    (k : α → State → State) : a.complete s k = .next (k v u) := by
  rw [h]
  rfl

/-! ## The accesses at a permitted address -/

/-- The sizes of the loads and stores (R86). -/
def AccessSize (n : Nat) : Prop := n = 1 ∨ n = 2 ∨ n = 4

theorem aligned_of_mod_eq_zero {n : Nat} {va : Word} (hn : AccessSize n) (h : va.toNat % n = 0) : aligned n va = true := by
  rcases hn with rfl | rfl | rfl
  · rfl
  · rw [aligned_two, decide_eq_true h]
  · rw [aligned_four, decide_eq_true h]

section Permitted

variable {s : State} {va : Word} {n : Nat}

/-- MemRead at a permitted address, where no bus error stands in the way (R103). -/
theorem memRead_of_permitted (hn : AccessSize n) (hp : Permitted s va n) (hf : s.loadFails va n = false) :
    ∃ u, OnlyDataSide s u ∧ u.stores = s.stores ∧ DataRead va s u ∧
      memRead va n s = .ok (assemble s.bigEndian (s.bytesAt va n)) u := by
  obtain ⟨hmod, m, hm, ha⟩ := hp
  have hal := aligned_of_mod_eq_zero hn hmod
  obtain ⟨u, hside, hstores, hread⟩ := memRead_ok s (aligned_in_word hn hal) hal hm ha hf
  exact ⟨u, hside, hstores, memRead_dataRead hread, hread⟩

/-- MemWrite at a permitted address, where no bus error stands in the way (R104). -/
theorem memWrite_of_permitted (hn : AccessSize n) (hp : Permitted s va n) (hf : s.storeFails va = false) (v : Word) :
    ∃ u, OnlyDataSide s u ∧ DataWritten va (layOut s.bigEndian n v) s u ∧
      u.bytesAt va n = layOut s.bigEndian n v ∧ memWrite va n v s = .ok () u := by
  obtain ⟨hmod, m, hm, ha⟩ := hp
  have hal := aligned_of_mod_eq_zero hn hmod
  obtain ⟨u, hside, hwrite, -⟩ := memWrite_ok s v (aligned_in_word hn hal) hal hm ha hf
  have hbytes := storeBytes_bytesAt (by rw [length_layOut]; exact aligned_in_word hn hal) (checkAddress_bind_ok hwrite).2
  rw [length_layOut] at hbytes
  exact ⟨u, hside, memWrite_dataWritten hwrite, hbytes, hwrite⟩

end Permitted

/-! ## The loads (R202 to R205, R209) -/

/-- A load of any size completes; the state `u` after its access does not depend on what it does with the value. -/
theorem load_of_permitted {n : Nat} {s : State} {base : Reg} {off : Imm16} (hn : AccessSize n)
    (hp : Permitted s (s.effectiveAddress base off) n) (hf : s.loadFails (s.effectiveAddress base off) n = false) :
    ∃ u, OnlyDataSide s u ∧ u.stores = s.stores ∧ DataRead (s.effectiveAddress base off) s u ∧
      ∀ f rt, load n f base rt off s =
        .next ((u.setReg rt (f (assemble s.bigEndian (s.bytesAt (s.effectiveAddress base off) n)))).retire .other) := by
  obtain ⟨u, hside, hstores, hdata, hread⟩ := memRead_of_permitted hn hp hf
  exact ⟨u, hside, hstores, hdata, fun _ _ => Access.complete_ok hread s _⟩

/-- A load leaves on the data side what its access left there. -/
theorem load_dataRead {n : Nat} {s : State} {base rt : Reg} {off : Imm16} (hn : AccessSize n)
    (hp : Permitted s (s.effectiveAddress base off) n) (hf : s.loadFails (s.effectiveAddress base off) n = false)
    (f : Word → Word) :
    ∃ t, load n f base rt off s = .next t ∧ DataRead (s.effectiveAddress base off) s t := by
  obtain ⟨u, -, -, hdata, hload⟩ := load_of_permitted hn hp hf
  exact ⟨_, hload f rt, hdata.of_sameMemory (sameMemory_setReg_retire u rt _ _)⟩

/-- The low byte of the value of one byte. -/
theorem byte_assemble_singleton (b : Bool) (x : Byte) : (assemble b [x]).extractLsb' 0 8 = x := by
  cases b <;> exact byte_leWord [x] (k := 0) (by omega)

/-- Settles O30: each load is the access of its size, and what it does with the value. -/
theorem loadResults : Obligations.LoadResults := by
  unfold Obligations.LoadResults
  rintro s base rt off va rfl
  refine ⟨fun hp hf => ?byte, fun hp hf => ?half, fun hp hf => ?word, fun i n hi hp hf => ?side⟩
  case byte =>
    obtain ⟨u, hside, hstores, -, hload⟩ := load_of_permitted (.inl rfl) hp hf
    refine ⟨u, hside, hstores, (hload signExtendByte rt).trans ?_, (hload zeroExtendByte rt).trans ?_⟩
    · rw [signExtendByte, State.bytesAt, addresses, addresses, List.map_cons, List.map_nil, byte_assemble_singleton]
    · rw [zeroExtendByte, State.bytesAt, addresses, addresses, List.map_cons, List.map_nil, byte_assemble_singleton]
  case half =>
    obtain ⟨u, hside, hstores, -, hload⟩ := load_of_permitted (.inr (.inl rfl)) hp hf
    refine ⟨u, _, hside, hstores, rfl, (hload signExtendHalf rt).trans ?_, (hload zeroExtendHalf rt).trans ?_⟩
    · rw [signExtendHalf, BitVec.setWidth_eq_extractLsb' (by omega)]
    · rw [zeroExtendHalf, BitVec.setWidth_eq_extractLsb' (by omega : 16 ≤ 32)]
  case word =>
    obtain ⟨u, hside, hstores, -, hload⟩ := load_of_permitted (.inr (.inr rfl)) hp hf
    exact ⟨u, hside, hstores, hload id rt⟩
  case side =>
    simp only [List.mem_cons, List.not_mem_nil, or_false, Prod.mk.injEq] at hi
    rcases hi with ⟨rfl, rfl⟩ | ⟨rfl, rfl⟩ | ⟨rfl, rfl⟩ | ⟨rfl, rfl⟩ | ⟨rfl, rfl⟩
    · exact load_dataRead (.inl rfl) hp hf signExtendByte
    · exact load_dataRead (.inl rfl) hp hf zeroExtendByte
    · exact load_dataRead (.inr (.inl rfl)) hp hf signExtendHalf
    · exact load_dataRead (.inr (.inl rfl)) hp hf zeroExtendHalf
    · exact load_dataRead (.inr (.inr rfl)) hp hf id

/-! ## The stores (R210, R211, R215) -/

theorem store_of_permitted {n : Nat} {s : State} {base : Reg} {off : Imm16} (hn : AccessSize n)
    (hp : Permitted s (s.effectiveAddress base off) n) (hf : s.storeFails (s.effectiveAddress base off) = false) (rt : Reg) :
    ∃ u, OnlyDataSide s u ∧ store n base rt off s = .next (u.retire .other) ∧
      u.bytesAt (s.effectiveAddress base off) n = layOut s.bigEndian n (s.reg rt) ∧
      DataWritten (s.effectiveAddress base off) (layOut s.bigEndian n (s.reg rt)) s (u.retire .other) := by
  obtain ⟨u, hside, hdata, hbytes, hwrite⟩ := memWrite_of_permitted hn hp hf (s.reg rt)
  exact ⟨u, hside, Access.complete_ok hwrite s _, hbytes, hdata.of_sameMemory (sameMemory_retire u _)⟩

/-- A store leaves on the data side what its access left there. -/
theorem store_dataWritten {n : Nat} {s : State} {base : Reg} {off : Imm16} (hn : AccessSize n)
    (hp : Permitted s (s.effectiveAddress base off) n) (hf : s.storeFails (s.effectiveAddress base off) = false) (rt : Reg) :
    ∃ t, store n base rt off s = .next t ∧
      DataWritten (s.effectiveAddress base off) (layOut s.bigEndian n (s.reg rt)) s t := by
  obtain ⟨u, -, hstore, -, hdata⟩ := store_of_permitted hn hp hf rt
  exact ⟨_, hstore, hdata⟩

/-- A byte is laid out alike in both orders. -/
theorem layOut_one (b : Bool) (v : Word) : layOut b 1 v = [v.extractLsb' 0 8] := by
  cases b <;> simp [layOut, leBytes_eq_map]

/-- Settles O32: each store is the access of its size. -/
theorem storeResults : Obligations.StoreResults := by
  unfold Obligations.StoreResults
  rintro s base rt off va rfl hf
  refine ⟨fun hp => ?byte, fun hp => ?half, fun hp => ?word, fun i n hi hp => ?side⟩
  case byte =>
    obtain ⟨u, hside, hstore, hbytes, -⟩ := store_of_permitted (.inl rfl) hp hf rt
    rw [layOut_one] at hbytes
    exact ⟨u, hside, hstore, List.head_eq_of_cons_eq hbytes⟩
  case half =>
    obtain ⟨u, hside, hstore, hbytes, -⟩ := store_of_permitted (.inr (.inl rfl)) hp hf rt
    exact ⟨u, hside, hstore, hbytes⟩
  case word =>
    obtain ⟨u, hside, hstore, hbytes, -⟩ := store_of_permitted (.inr (.inr rfl)) hp hf rt
    exact ⟨u, hside, hstore, hbytes⟩
  case side =>
    simp only [List.mem_cons, List.not_mem_nil, or_false, Prod.mk.injEq] at hi
    rcases hi with ⟨rfl, rfl⟩ | ⟨rfl, rfl⟩ | ⟨rfl, rfl⟩
    · exact store_dataWritten (.inl rfl) hp hf rt
    · exact store_dataWritten (.inr (.inl rfl)) hp hf rt
    · exact store_dataWritten (.inr (.inr rfl)) hp hf rt

/-! ## LL and SC (R208, R214) -/

/-- SC checks its address, and does nothing else to memory, where LLbit is 0. -/
theorem execSc_of_not_llBit {s : State} {base rt : Reg} {off : Imm16} (hp : Permitted s (s.effectiveAddress base off) 4)
    (hl : s.llBit = false) : execSc base rt off s = .next (s.afterSc rt 0) := by
  obtain ⟨hmod, m, hm, ha⟩ := hp
  have hcheck := checkAddress_ok (k := .store) s (aligned_of_mod_eq_zero (.inr (.inr rfl)) hmod) hm ha
  rw [execSc, if_neg (by rw [hl]; decide)]
  exact Access.complete_ok hcheck s _

/-- The free value that SC leaves in LLbit is the next one of the state that it began in: its access draws none. -/
theorem OnlyDataSide.afterSc {s u : State} (h : OnlyDataSide s u) (rt : Reg) (v : Word) :
    u.afterSc rt v = ({ u.drawn 1 with llBit := s.freeBit }.setReg rt v).retire .other := by
  have hfree : s.freeBit = u.freeBit := by simp only [State.freeBit, State.freeWord, h.freeCount]
  rw [hfree]
  rfl

/-- Settles O34: LL is the access of LW, SC that of SW where LLbit is 1 and the check alone where it is 0. -/
theorem linkedPairResults : Obligations.LinkedPairResults := by
  unfold Obligations.LinkedPairResults
  rintro s base rt off va rfl hp
  refine ⟨fun hf => ?ll, fun hl hf => ?sc, fun hl => ?scFails⟩
  case ll =>
    obtain ⟨u, hside, hstores, hdata, hread⟩ := memRead_of_permitted (.inr (.inr rfl)) hp hf
    have hll := Access.complete_ok hread s fun v t => { t.setReg rt v with llBit := true }.retire .other
    exact ⟨⟨_, hll, hdata.of_sameMemory ⟨rfl, rfl, rfl, rfl, rfl⟩⟩, u, hside, hstores, hll⟩
  case sc =>
    obtain ⟨u, hside, hdata, hbytes, hwrite⟩ := memWrite_of_permitted (.inr (.inr rfl)) hp hf (s.reg rt)
    have hsc : exec (.sc base rt off) s = .next (u.afterSc rt 1) :=
      (if_pos hl).trans (Access.complete_ok hwrite s fun _ t => t.afterSc rt 1)
    exact ⟨⟨_, hsc, hdata.of_sameMemory ⟨rfl, rfl, rfl, rfl, rfl⟩⟩, u, hside, hbytes, by rw [hsc, hside.afterSc]⟩
  case scFails =>
    exact (execSc_of_not_llBit hp hl).trans (by rw [(OnlyDataSide.refl s).afterSc])

end Sys2Proof.Machine
end

section
/-! PROOFS. The loads and stores of a part of a word, at any alignment: LWL, LWR, SWL and SWR (R105, R206, R207, R212, R213). -/

namespace Sys2Proof.Machine

/-! ## The parts of a word in each byte order -/

/-- The word's bytes from its start to the address, as LWL and SWL move them in little-endian order. -/
theorem partUpTo_eq (va : Word) : partUpTo va = { start := wordAddress va, count := va.toNat % 4 + 1 } := by
  rw [partUpTo, toNat_byteInWord]

/-- The word's bytes from the address to its end, as LWR and SWR move them in little-endian order. -/
theorem partFrom_eq (va : Word) : partFrom va = { start := va, count := 4 - va.toNat % 4 } := by
  rw [partFrom, toNat_byteInWord]

theorem leftPart_little (va : Word) : leftPart false va = partUpTo va := rfl

theorem leftPart_big (va : Word) : leftPart true va = partFrom va := rfl

theorem rightPart_little (va : Word) : rightPart false va = partFrom va := rfl

theorem rightPart_big (va : Word) : rightPart true va = partUpTo va := rfl

/-- A byte of the word from `va` on, by its place in the word. -/
theorem add_eq_wordAddress_add (va : Word) (i : Nat) :
    va + BitVec.ofNat 32 i = wordAddress va + BitVec.ofNat 32 (va.toNat % 4 + i) := by
  have hva := va.isLt
  apply BitVec.eq_of_toNat_eq
  simp only [BitVec.toNat_add, BitVec.toNat_ofNat, toNat_wordAddress]
  omega

/-! ## The four instructions at an address -/

section

variable {s : State} {va : Word} {base : Reg} {off : Imm16} (hva : va = s.effectiveAddress base off) (rt : Reg)
include hva

theorem exec_lwl : exec (.lwl base rt off) s = loadPart (leftPart s.bigEndian va) mergeLeft va rt s := by
  rw [hva]
  rfl

theorem exec_lwr : exec (.lwr base rt off) s = loadPart (rightPart s.bigEndian va) mergeRight va rt s := by
  rw [hva]
  rfl

theorem exec_swl :
    exec (.swl base rt off) s =
      storePart (leftPart s.bigEndian va) va (s.reg rt >>> (8 * (4 - (leftPart s.bigEndian va).count))) s := by
  rw [hva]
  rfl

theorem exec_swr : exec (.swr base rt off) s = storePart (rightPart s.bigEndian va) va (s.reg rt) s := by
  rw [hva]
  rfl

end

/-! ## What LWL and LWR leave in their register -/

/-- The value of a part of a word. -/
def WordPart.value (p : WordPart) (s : State) : Word := assemble s.bigEndian (s.bytesAt p.start p.count)

/-- The address of byte `k` of the value of a part, in the byte order in force. -/
def WordPart.byteAddress (p : WordPart) (bigEndian : Bool) (k : Nat) : Word :=
  p.start + BitVec.ofNat 32 (byteOffset bigEndian p.count k)

theorem WordPart.byte_value (p : WordPart) (s : State) {k : Nat} (hk : k < 4) :
    (p.value s).extractLsb' (8 * k) 8 = if k < p.count then s.byteAt (p.byteAddress s.bigEndian k) else 0 :=
  byte_assemble_addresses _ _ _ hk

/-- LWL puts the part at the high end (R206). -/
theorem byte_mergeLeft_value (p : WordPart) (s : State) (old : Word) (hp : p.count ≤ 4) {k : Nat} (hk : k < 4) :
    (mergeLeft p.count (p.value s) old).extractLsb' (8 * k) 8 =
      if 4 - p.count ≤ k then s.byteAt (p.byteAddress s.bigEndian (k - (4 - p.count))) else old.extractLsb' (8 * k) 8 := by
  rw [byte_mergeLeft _ _ hk]
  split
  · rw [p.byte_value s (by omega), if_pos (by omega)]
  · rfl

/-- LWR puts the part at the low end (R207). -/
theorem byte_mergeRight_value (p : WordPart) (s : State) (old : Word) {k : Nat} (hk : k < 4) :
    (mergeRight p.count (p.value s) old).extractLsb' (8 * k) 8 =
      if k < p.count then s.byteAt (p.byteAddress s.bigEndian k) else old.extractLsb' (8 * k) 8 := by
  rw [byte_mergeRight _ _ hk fun hn => by rw [p.byte_value s hk, if_neg (by omega)]]
  split
  · next hn => rw [p.byte_value s hk, if_pos hn]
  · rfl

/-! ## LWL and LWR complete -/

/-- LWL and LWR complete where no bus error stands in the way of the part that they take (R105). -/
theorem loadPart_of_permitted {p : WordPart} {s : State} {va : Word} (hl : SameLine p.start va)
    (hw : p.start.toNat % 4 + p.count ≤ 4) (hp : Permitted s va 1) (hf : s.loadFails p.start p.count = false)
    (merge : Nat → Word → Word → Word) (rt : Reg) :
    ∃ u, OnlyDataSide s u ∧ u.stores = s.stores ∧
      loadPart p merge va rt s = .next ((u.setReg rt (merge p.count (p.value s) (s.reg rt))).retire .other) ∧
      DataRead va s ((u.setReg rt (merge p.count (p.value s) (s.reg rt))).retire .other) := by
  obtain ⟨-, m, hm, ha⟩ := hp
  obtain ⟨u, hside, hstores, hread⟩ := memReadPart_ok s hw hm ha hf
  refine ⟨u, hside, hstores, ?_, (memReadPart_dataRead hl hread).of_sameMemory (sameMemory_setReg_retire u rt _ _)⟩
  rw [loadPart, Access.complete_ok hread, hside.reg]
  rfl

/-- Bytes of a word chosen by the same condition at the same places. -/
theorem ite_byte_congr {c d : Prop} [Decidable c] [Decidable d] {f : Word → Byte} {va : Word} {i j : Nat} {x : Byte}
    (hcd : c ↔ d) (hij : d → i = j) :
    (if c then f (va + BitVec.ofNat 32 i) else x) = if d then f (va + BitVec.ofNat 32 j) else x := by
  by_cases hd : d
  · rw [if_pos (hcd.2 hd), if_pos hd, hij hd]
  · rw [if_neg (mt hcd.1 hd), if_neg hd]

/-- Settles O31: the bytes of the part, at their places in the word, and the others as they were. -/
theorem unalignedLoadResults : Obligations.UnalignedLoadResults := by
  unfold Obligations.UnalignedLoadResults
  rintro s base rt off va b hva rfl hp
  obtain ⟨hlineL, hlineR⟩ := sameLine_parts s.bigEndian va
  obtain ⟨⟨-, hwordL⟩, -, hwordR⟩ := part_in_word s.bigEndian va
  refine ⟨fun hf => ?left, fun hf => ?right⟩
  case left =>
    obtain ⟨u, hside, hstores, hload, hdata⟩ := loadPart_of_permitted hlineL hwordL hp hf mergeLeft rt
    refine ⟨_, u, _, hside, hstores, rfl, (exec_lwl hva rt).trans hload, hdata, fun hb k hk => ?_, fun hb k hk => ?_⟩
    all_goals rw [byte_mergeLeft_value _ _ _ (by omega) hk, WordPart.byteAddress, hb]
    · rw [leftPart_little, partUpTo_eq, byteOffset_little]
      exact ite_byte_congr (by dsimp only; omega) fun _ => by dsimp only; omega
    · rw [leftPart_big, partFrom_eq, byteOffset_big, add_eq_wordAddress_add]
      exact ite_byte_congr (by dsimp only; omega) fun _ => by dsimp only; omega
  case right =>
    obtain ⟨u, hside, hstores, hload, hdata⟩ := loadPart_of_permitted hlineR hwordR hp hf mergeRight rt
    refine ⟨_, u, _, hside, hstores, rfl, (exec_lwr hva rt).trans hload, hdata, fun hb k hk => ?_, fun hb k hk => ?_⟩
    all_goals rw [byte_mergeRight_value _ _ _ hk, WordPart.byteAddress, hb]
    · rw [rightPart_little, partFrom_eq, byteOffset_little, add_eq_wordAddress_add]
      exact ite_byte_congr (by dsimp only; omega) fun _ => by dsimp only; omega
    · rw [rightPart_big, partUpTo_eq, byteOffset_big]
      exact ite_byte_congr (by dsimp only; omega) fun _ => by dsimp only; omega

/-! ## SWL and SWR -/

/-- SWL and SWR complete where no bus error stands in the way of a fill of the line (R105). -/
theorem storePart_of_permitted {p : WordPart} {s : State} {va : Word} (hl : SameLine p.start va)
    (hw : p.start.toNat % 4 + p.count ≤ 4) (hp : Permitted s va 1) (hf : s.storeFails va = false) (v : Word) :
    ∃ u, OnlyDataSide s u ∧ storePart p va v s = .next (u.retire .other) ∧
      DataWritten p.start (layOut s.bigEndian p.count v) s (u.retire .other) ∧
      ∀ i, i < p.count → u.byteAt (p.start + BitVec.ofNat 32 i) =
        v.extractLsb' (8 * byteOffset s.bigEndian p.count i) 8 := by
  obtain ⟨-, m, hm, ha⟩ := hp
  obtain ⟨u, hside, hwrite, hbytes⟩ := memWritePart_ok s v hw hm ha ((storeFails_congr hl).trans hf)
  refine ⟨u, hside, Access.complete_ok hwrite s _, (memWritePart_dataWritten hwrite).of_sameMemory (sameMemory_retire u _),
    fun i hi => ?_⟩
  rw [hbytes i hi, getElem_layOut]

/-- Settles O33: the bytes of the register that belong to the part, at their places in the word. -/
theorem unalignedStoreResults : Obligations.UnalignedStoreResults := by
  unfold Obligations.UnalignedStoreResults
  rintro s base rt off va b hva rfl hp hf
  obtain ⟨hlineL, hlineR⟩ := sameLine_parts s.bigEndian va
  obtain ⟨⟨-, hwordL⟩, -, hwordR⟩ := part_in_word s.bigEndian va
  obtain ⟨u, hsideL, hswl, hdataL, hbytesL⟩ := storePart_of_permitted hlineL hwordL hp hf
    (s.reg rt >>> (8 * (4 - (leftPart s.bigEndian va).count)))
  obtain ⟨w, hsideR, hswr, hdataR, hbytesR⟩ := storePart_of_permitted hlineR hwordR hp hf (s.reg rt)
  simp only [byte_ushiftRight] at hbytesL
  refine ⟨u, w, hsideL, hsideR, (exec_swl hva rt).trans hswl, (exec_swr hva rt).trans hswr, fun hb => ?little, fun hb => ?big⟩
  case little =>
    simp only [hb, leftPart_little, rightPart_little, partUpTo_eq, partFrom_eq, byteOffset_little, Nat.reduceSubDiff]
      at hdataL hdataR hbytesL hbytesR
    refine ⟨hdataL, hdataR, fun k hk => hbytesL k (by omega), fun k hbk hk => ?_⟩
    have h := hbytesR (k - va.toNat % 4) (by omega)
    rwa [add_eq_wordAddress_add, Nat.add_sub_cancel' hbk] at h
  case big =>
    have hcount : 4 - (4 - va.toNat % 4) = va.toNat % 4 := by omega
    simp only [hb, leftPart_big, rightPart_big, partUpTo_eq, partFrom_eq, byteOffset_big, hcount]
      at hdataL hdataR hbytesL hbytesR
    refine ⟨hdataL, hdataR, fun k hbk hk => ?_, fun k hk => hbytesR k (by omega)⟩
    have h := hbytesL (k - va.toNat % 4) (by omega)
    have hplace : va.toNat % 4 + (4 - va.toNat % 4 - 1 - (k - va.toNat % 4)) = 3 - (k - va.toNat % 4) := by omega
    rwa [add_eq_wordAddress_add, Nat.add_sub_cancel' hbk, hplace] at h

end Sys2Proof.Machine
end

section
/-! PROOFS. A word at any alignment, loaded by LWL and LWR in either order (R216). -/

namespace Sys2Proof.Machine

theorem SameLine.trans {a b c : Word} (h : SameLine a b) (g : SameLine b c) : SameLine a c := ⟨h.line.trans g.line⟩

theorem SameLine.symm {a b : Word} (h : SameLine a b) : SameLine b a := ⟨h.line.symm⟩

/-! ## The addresses of the pair -/

/-- The address that LWL is given to load what it can of the word at `a`: that of the word's most significant byte. -/
def leftAddress (bigEndian : Bool) (a : Word) : Word := if bigEndian then a else a + 3

/-- The address that LWR is given to load what it can of the word at `a`: that of the word's least significant byte. -/
def rightAddress (bigEndian : Bool) (a : Word) : Word := if bigEndian then a + 3 else a

/-- What LWL takes of the word at `a`. -/
abbrev leftHalf (bigEndian : Bool) (a : Word) : WordPart := leftPart bigEndian (leftAddress bigEndian a)

/-- What LWR takes of the word at `a`. -/
abbrev rightHalf (bigEndian : Bool) (a : Word) : WordPart := rightPart bigEndian (rightAddress bigEndian a)

/-- The address of byte `k` of the word at `a`, in the byte order in force. -/
def wordByteAddress (bigEndian : Bool) (a : Word) (k : Nat) : Word := a + BitVec.ofNat 32 (byteOffset bigEndian 4 k)

theorem toNat_add_three (a : Word) : (a + 3).toNat = (a.toNat + 3) % 2 ^ 32 := BitVec.toNat_add a 3

/-- A word that does not reach beyond its line lies in one line. -/
theorem sameLine_add_three {a : Word} (h : a.toNat % 64 ≤ 60) : SameLine (a + 3) a := by
  have ha := a.isLt
  constructor
  rw [toNat_add_three]
  omega

theorem leftHalf_little (a : Word) :
    leftHalf false a = { start := wordAddress (a + 3), count := (a.toNat + 3) % 4 + 1 } := by
  have hmod : (a.toNat + 3) % 2 ^ 32 % 4 = (a.toNat + 3) % 4 := by omega
  rw [leftHalf, leftPart_little, partUpTo_eq, leftAddress, if_neg (by decide), toNat_add_three, hmod]

theorem leftHalf_big (a : Word) : leftHalf true a = { start := a, count := 4 - a.toNat % 4 } := partFrom_eq a

theorem rightHalf_little (a : Word) : rightHalf false a = { start := a, count := 4 - a.toNat % 4 } := partFrom_eq a

theorem rightHalf_big (a : Word) : rightHalf true a = leftHalf false a := rfl

theorem leftHalf_in_word (b : Bool) (a : Word) :
    0 < (leftHalf b a).count ∧ (leftHalf b a).start.toNat % 4 + (leftHalf b a).count ≤ 4 := (part_in_word b _).1

theorem rightHalf_in_word (b : Bool) (a : Word) :
    0 < (rightHalf b a).count ∧ (rightHalf b a).start.toNat % 4 + (rightHalf b a).count ≤ 4 := (part_in_word b _).2

/-- The bytes that LWL takes are the highest of the word. -/
theorem leftHalf_byteAddress (b : Bool) (a : Word) {k : Nat} (hk : k < 4) (hin : 4 - (leftHalf b a).count ≤ k) :
    (leftHalf b a).byteAddress b (k - (4 - (leftHalf b a).count)) = wordByteAddress b a k := by
  have ha := a.isLt
  apply BitVec.eq_of_toNat_eq
  cases b
  · rw [leftHalf_little] at hin ⊢
    simp only [WordPart.byteAddress, wordByteAddress, byteOffset_little, BitVec.toNat_add, BitVec.toNat_ofNat,
      BitVec.reduceToNat, toNat_wordAddress] at hin ⊢
    omega
  · rw [leftHalf_big] at hin ⊢
    simp only [WordPart.byteAddress, wordByteAddress, byteOffset_big, BitVec.toNat_add, BitVec.toNat_ofNat] at hin ⊢
    omega

/-- The bytes that LWR takes are the lowest of the word. -/
theorem rightHalf_byteAddress (b : Bool) (a : Word) {k : Nat} (hin : k < (rightHalf b a).count) :
    (rightHalf b a).byteAddress b k = wordByteAddress b a k := by
  have ha := a.isLt
  apply BitVec.eq_of_toNat_eq
  cases b
  · rfl
  · rw [rightHalf_big, leftHalf_little] at hin ⊢
    simp only [WordPart.byteAddress, wordByteAddress, byteOffset_big, BitVec.toNat_add, BitVec.toNat_ofNat,
      BitVec.reduceToNat, toNat_wordAddress] at hin ⊢
    omega

/-- Between them the two take the whole word. -/
theorem halves_cover (b : Bool) (a : Word) (k : Nat) : 4 - (leftHalf b a).count ≤ k ∨ k < (rightHalf b a).count := by
  cases b
  · rw [leftHalf_little, rightHalf_little]
    dsimp only
    omega
  · rw [leftHalf_big, rightHalf_big, leftHalf_little]
    dsimp only
    omega

theorem WordPart.sameLine_byteAddress {p : WordPart} (hw : p.start.toNat % 4 + p.count ≤ 4) (b : Bool) {k : Nat}
    (hk : k < p.count) : SameLine (p.byteAddress b k) p.start := by
  refine sameLine_add ?_
  rw [byteOffset]
  split <;> omega

/-! ## One instruction of the pair -/

/-- A load through `va` does not change what is read at `x`: it is of the same line, or non-cached, or the data side is settled
and no other virtual address of `x` is dirty (R117). -/
def State.Undisturbed (s : State) (va x : Word) : Prop :=
  SameLine x va ∨ cachedAddress va = false ∨ s.Settled ∧ s.Unaliased x

theorem State.Undisturbed.sameLine {s : State} {va wa x y : Word} (h : s.Undisturbed va x) (hv : SameLine wa va)
    (hx : SameLine y x) : s.Undisturbed wa y := by
  rcases h with h | h | ⟨hs, h⟩
  · exact .inl ((hx.trans h).trans hv.symm)
  · exact .inr (.inl (hv.cachedAddress_eq.trans h))
  · exact .inr (.inr ⟨hs, State.Unaliased.sameLine hx h⟩)

/-- From `s` to `t`, an instruction has loaded through `va` into `rt` the bytes `k` with `P k` of the word at `a`, and no others. -/
structure LoadedBytes (P : Nat → Prop) (a va : Word) (rt : Reg) (s t : State) : Prop where
  loaded : rt ≠ 0#5 → ∀ k, k < 4 → P k →
    (t.reg rt).extractLsb' (8 * k) 8 = s.byteAt (wordByteAddress s.bigEndian a k)
  kept : ∀ k, k < 4 → ¬P k → (t.reg rt).extractLsb' (8 * k) 8 = (s.reg rt).extractLsb' (8 * k) 8
  inLine : ∀ k, k < 4 → P k → SameLine (wordByteAddress s.bigEndian a k) va
  order : t.bigEndian = s.bigEndian
  undisturbed : ∀ x, s.Undisturbed va x → t.byteAt x = s.byteAt x

/-- Two instructions that load all bytes of a word between them load the word, if the first does not change what the second
reads. -/
theorem LoadedBytes.pair {P Q : Nat → Prop} {a va wa : Word} {rt : Reg} {s t u : State} (h : LoadedBytes P a va rt s t)
    (g : LoadedBytes Q a wa rt t u) (hcover : ∀ k, P k ∨ Q k) (hd : s.Undisturbed va wa) :
    u.reg rt = if rt = 0#5 then 0 else assemble s.bigEndian (s.bytesAt a 4) := by
  split
  · next hrt => rw [hrt, State.reg_zero]
  · next hrt =>
    refine eq_of_bytes_eq fun k hk => ?_
    have hword : (assemble s.bigEndian (s.bytesAt a 4)).extractLsb' (8 * k) 8 =
        s.byteAt (wordByteAddress s.bigEndian a k) := (byte_assemble_addresses _ _ _ hk).trans (if_pos hk)
    rw [hword]
    by_cases hq : Q k
    · have hline := g.inLine k hk hq
      rw [g.loaded hrt k hk hq]
      rw [h.order] at hline ⊢
      exact h.undisturbed _ (hd.sameLine ⟨rfl⟩ hline)
    · rw [g.kept k hk hq, h.loaded hrt k hk ((hcover k).resolve_right hq)]

/-- What an LWL or LWR that completes has done. -/
theorem loadPart_next {p : WordPart} {merge : Nat → Word → Word → Word} {va : Word} {rt : Reg} {s t : State}
    (hl : SameLine p.start va) (hw : p.start.toNat % 4 + p.count ≤ 4) (h : loadPart p merge va rt s = .next t)
    (ht : t.entered = false) :
    ∃ u, OnlyDataSide s u ∧ t = (u.setReg rt (merge p.count (p.value s) (s.reg rt))).retire .other ∧
      ∀ x, s.Undisturbed va x → u.byteAt x = s.byteAt x := by
  rcases Access.complete_next s h with ⟨v, u, hread, rfl⟩ | ⟨e, -, rfl⟩
  · obtain ⟨hside, -, hv⟩ := memReadPart_next s hw hread
    refine ⟨u, hside, by rw [hv, hside.reg]; rfl, fun x hx => ?_⟩
    obtain ⟨bs, _, hload, he⟩ := Access.bind_ok (checkAddress_bind_ok hread).2
    cases he
    exact loadBytes_byteAt hload (hx.sameLine hl ⟨rfl⟩)
  · cases ht

/-- An LWL or LWR that completes, by the bytes that it merges. -/
theorem loadedBytes_of_loadPart {p : WordPart} {merge : Nat → Word → Word → Word} {P : Nat → Prop} [DecidablePred P]
    {a va : Word} {rt : Reg} {s t : State} (hl : SameLine p.start va) (hw : p.start.toNat % 4 + p.count ≤ 4)
    (hmerge : ∀ k, k < 4 → (merge p.count (p.value s) (s.reg rt)).extractLsb' (8 * k) 8 =
      if P k then s.byteAt (wordByteAddress s.bigEndian a k) else (s.reg rt).extractLsb' (8 * k) 8)
    (hline : ∀ k, k < 4 → P k → SameLine (wordByteAddress s.bigEndian a k) p.start)
    (h : loadPart p merge va rt s = .next t) (ht : t.entered = false) : LoadedBytes P a va rt s t := by
  obtain ⟨u, hside, rfl, hbytes⟩ := loadPart_next hl hw h ht
  have hreg (hrt : rt ≠ 0#5) : ((u.setReg rt (merge p.count (p.value s) (s.reg rt))).retire .other).reg rt =
      merge p.count (p.value s) (s.reg rt) := u.reg_setReg_same _ hrt
  refine
    { loaded := fun hrt k hk hP => ?_
      kept := fun k hk hP => ?_
      inLine := fun k hk hP => (hline k hk hP).trans hl
      order := by simp only [State.bigEndian, State.mode, retire_cp0, setReg_cp0, hside.cp0]
      undisturbed := hbytes }
  · rw [hreg hrt, hmerge k hk, if_pos hP]
  · by_cases hrt : rt = 0#5
    · rw [hrt, State.reg_zero, State.reg_zero]
    · rw [hreg hrt, hmerge k hk, if_neg hP]

section

variable {s t : State} {base rt : Reg} {off : Imm16} {a : Word}

theorem loadedBytes_lwl (hva : leftAddress s.bigEndian a = s.effectiveAddress base off)
    (h : exec (.lwl base rt off) s = .next t) (ht : t.entered = false) :
    LoadedBytes (4 - (leftHalf s.bigEndian a).count ≤ ·) a (leftAddress s.bigEndian a) rt s t := by
  obtain ⟨hpos, hw⟩ := leftHalf_in_word s.bigEndian a
  rw [exec_lwl hva] at h
  refine loadedBytes_of_loadPart (sameLine_parts _ _).1 hw (fun k hk => ?_) (fun k hk hin => ?_) h ht
  · rw [byte_mergeLeft_value (leftHalf s.bigEndian a) s _ (by omega) hk]
    exact ite_congr rfl (fun hin => congrArg s.byteAt (leftHalf_byteAddress _ _ hk hin)) fun _ => rfl
  · rw [← leftHalf_byteAddress _ _ hk hin]
    exact WordPart.sameLine_byteAddress hw _ (by omega)

theorem loadedBytes_lwr (hva : rightAddress s.bigEndian a = s.effectiveAddress base off)
    (h : exec (.lwr base rt off) s = .next t) (ht : t.entered = false) :
    LoadedBytes (· < (rightHalf s.bigEndian a).count) a (rightAddress s.bigEndian a) rt s t := by
  obtain ⟨-, hw⟩ := rightHalf_in_word s.bigEndian a
  rw [exec_lwr hva] at h
  refine loadedBytes_of_loadPart (sameLine_parts _ _).2 hw (fun k hk => ?_) (fun k hk hin => ?_) h ht
  · rw [byte_mergeRight_value _ _ _ hk]
    exact ite_congr rfl (fun hin => congrArg s.byteAt (rightHalf_byteAddress _ _ hin)) fun _ => rfl
  · rw [← rightHalf_byteAddress _ _ hin]
    exact WordPart.sameLine_byteAddress hw _ hin

end

/-! ## The pair -/

/-- The two addresses lie in one line where the word does. -/
theorem sameLine_leftAddress_rightAddress (b : Bool) {a : Word} (h : a.toNat % 64 ≤ 60) :
    SameLine (leftAddress b a) (rightAddress b a) := by
  cases b
  · exact sameLine_add_three h
  · exact (sameLine_add_three h).symm

section

variable {s t u : State} {b c rt : Reg} {off off' : Imm16} {a : Word}

theorem reg_of_lwr_lwl (hr : rightAddress s.bigEndian a = s.effectiveAddress b off)
    (hl : leftAddress s.bigEndian a = t.effectiveAddress c off')
    (hd : a.toNat % 64 ≤ 60 ∨ cachedAddress (rightAddress s.bigEndian a) = false ∨
      s.Settled ∧ s.Unaliased (leftAddress s.bigEndian a))
    (hp : exec (.lwr b rt off) s = .next t) (ht : t.entered = false)
    (hq : exec (.lwl c rt off') t = .next u) (hu : u.entered = false) :
    u.reg rt = if rt = 0#5 then 0 else assemble s.bigEndian (s.bytesAt a 4) := by
  have hfirst := loadedBytes_lwr hr hp ht
  rw [← hfirst.order] at hl
  have hsecond := loadedBytes_lwl hl hq hu
  rw [hfirst.order] at hsecond
  exact hfirst.pair hsecond (fun k => (halves_cover _ a k).symm) (hd.imp_left (sameLine_leftAddress_rightAddress _))

theorem reg_of_lwl_lwr (hl : leftAddress s.bigEndian a = s.effectiveAddress b off)
    (hr : rightAddress s.bigEndian a = t.effectiveAddress c off')
    (hd : a.toNat % 64 ≤ 60 ∨ cachedAddress (leftAddress s.bigEndian a) = false ∨
      s.Settled ∧ s.Unaliased (rightAddress s.bigEndian a))
    (hp : exec (.lwl b rt off) s = .next t) (ht : t.entered = false)
    (hq : exec (.lwr c rt off') t = .next u) (hu : u.entered = false) :
    u.reg rt = if rt = 0#5 then 0 else assemble s.bigEndian (s.bytesAt a 4) := by
  have hfirst := loadedBytes_lwl hl hp ht
  rw [← hfirst.order] at hr
  have hsecond := loadedBytes_lwr hr hq hu
  rw [hfirst.order] at hsecond
  exact hfirst.pair hsecond (halves_cover _ a)
    (hd.imp_left fun h => (sameLine_leftAddress_rightAddress _ h).symm)

end

/-- A word in big-endian order (R83). -/
theorem assemble_addresses_big (f : Word → Byte) (a : Word) :
    assemble true ((addresses a 4).map f) = f a ++ f (a + 1) ++ f (a + 2) ++ f (a + 3) := by
  have h2 : a + 1 + 1 = a + 2 := by rw [BitVec.add_assoc]; rfl
  have h3 : a + 2 + 1 = a + 3 := by rw [BitVec.add_assoc]; rfl
  simp only [addresses, List.map_cons, List.map_nil, h2, h3]
  exact leWord_four _ _ _ _

/-- Settles O39: LWL loads the high bytes of the word and LWR the low ones, between them all, and the first of the two does not
change what the second reads. -/
theorem unalignedWordLoad : Obligations.UnalignedWordLoad := by
  unfold Obligations.UnalignedWordLoad
  intro s t u b c rt off off' a v p q hlittle hbig
  cases hb : s.bigEndian with
  | false =>
    obtain ⟨rfl, rfl, rfl⟩ := hlittle hb
    have hv : assemble s.bigEndian (s.bytesAt a 4) = _ := hb ▸ assemble_addresses s.byteAt a
    have hr : rightAddress s.bigEndian a = a := by rw [hb]; rfl
    have hl : leftAddress s.bigEndian a = a + 3 := by rw [hb]; rfl
    refine ⟨fun h1 h2 hd hp ht hq hu => ?_, fun h1 h2 hd hq ht hp hu => ?_⟩
    · exact (reg_of_lwr_lwl (hr.trans h1) (hl.trans h2) (by rwa [hr, hl]) hp ht hq hu).trans (by rw [hv]; rfl)
    · exact (reg_of_lwl_lwr (hl.trans h1) (hr.trans h2) (by rwa [hr, hl]) hq ht hp hu).trans (by rw [hv]; rfl)
  | true =>
    obtain ⟨rfl, rfl, rfl⟩ := hbig hb
    have hv : assemble s.bigEndian (s.bytesAt a 4) = _ := hb ▸ assemble_addresses_big s.byteAt a
    have hr : rightAddress s.bigEndian a = a + 3 := by rw [hb]; rfl
    have hl : leftAddress s.bigEndian a = a := by rw [hb]; rfl
    refine ⟨fun h1 h2 hd hp ht hq hu => ?_, fun h1 h2 hd hq ht hp hu => ?_⟩
    · exact (reg_of_lwl_lwr (hl.trans h1) (hr.trans h2) (by rwa [hr, hl]) hp ht hq hu).trans (by rw [hv])
    · exact (reg_of_lwr_lwl (hr.trans h1) (hl.trans h2) (by rwa [hr, hl]) hq ht hp hu).trans (by rw [hv])

end Sys2Proof.Machine
end

section
/-! PROOFS. The results of the arithmetic, logical and shift instructions, and overflow (R230 to R256). -/

namespace Sys2Proof.Machine

/-! ## Sums and differences modulo 2^32 (R233, R241, R243) -/

theorem add_eq_ofInt (a b : Word) : a + b = BitVec.ofInt 32 (a.toInt + b.toInt) := by
  rw [BitVec.ofInt_add, BitVec.ofInt_toInt, BitVec.ofInt_toInt]

theorem sub_eq_ofInt (a b : Word) : a - b = BitVec.ofInt 32 (a.toInt - b.toInt) := by
  rw [Int.sub_eq_add_neg, BitVec.ofInt_add, BitVec.ofInt_neg, BitVec.ofInt_toInt, BitVec.ofInt_toInt,
    BitVec.sub_eq_add_neg]

/-! ## Immediates (R148) -/

theorem toInt_signExtend16 (imm : Imm16) : (signExtend16 imm).toInt = imm.toInt :=
  BitVec.toInt_signExtend_of_le (by decide)

theorem signExtend16_eq_ofInt (imm : Imm16) : signExtend16 imm = BitVec.ofInt 32 imm.toInt := rfl

theorem zeroExtend16_eq_ofNat (imm : Imm16) : zeroExtend16 imm = BitVec.ofNat 32 imm.toNat :=
  (BitVec.ofNat_toNat 32 imm).symm

theorem upperImmediate_eq_ofNat (imm : Imm16) : upperImmediate imm = BitVec.ofNat 32 (imm.toNat * 65536) := by
  have himm := imm.isLt
  apply BitVec.eq_of_toNat_eq
  rw [upperImmediate, toNat_append, BitVec.toNat_ofNat, BitVec.toNat_ofNat]
  omega

/-! ## Comparisons -/

theorem truthWord_decide (p : Prop) [Decidable p] : truthWord (decide p) = if p then 1 else 0 := by
  by_cases h : p <;> simp [truthWord, h]

theorem truthWord_lessSigned (a b : Word) : truthWord (lessSigned a b) = if a.toInt < b.toInt then 1 else 0 :=
  truthWord_decide _

theorem truthWord_lessUnsigned (a b : Word) : truthWord (lessUnsigned a b) = if a.toNat < b.toNat then 1 else 0 :=
  truthWord_decide _

/-! ## Shifts (R250 to R256) -/

/-- The variable shift amount is the register's value modulo 32 (R250). -/
theorem toNat_shiftAmount (v : Word) : (shiftAmount v).toNat = v.toNat % 32 := by
  rw [shiftAmount, BitVec.extractLsb'_toNat, Nat.shiftRight_zero]

theorem shiftLeft_eq_ofNat (v : Word) (n : Nat) : v <<< n = BitVec.ofNat 32 (v.toNat * 2 ^ n) := by
  apply BitVec.eq_of_toNat_eq
  rw [BitVec.toNat_shiftLeft, Nat.shiftLeft_eq, BitVec.toNat_ofNat]

theorem ushiftRight_eq_ofNat (v : Word) (n : Nat) : v >>> n = BitVec.ofNat 32 (v.toNat / 2 ^ n) := by
  have hv : v.toNat / 2 ^ n < 2 ^ 32 := (Nat.div_le_self _ _).trans_lt v.isLt
  apply BitVec.eq_of_toNat_eq
  rw [BitVec.toNat_ushiftRight, Nat.shiftRight_eq_div_pow, BitVec.toNat_ofNat, Nat.mod_eq_of_lt hv]

theorem sshiftRight_eq_ofInt (v : Word) (n : Nat) : v.sshiftRight n = BitVec.ofInt 32 (v.toInt / 2 ^ n) := by
  rw [BitVec.sshiftRight_eq, Int.shiftRight_eq_div_pow, Nat.cast_pow, Nat.cast_ofNat]

/-! ## The two ways in which an ALU instruction ends (R230, R231) -/

/-- What a result is to be decides the whole next state. -/
theorem writeBack_of_eq {v w : Word} (h : v = w) (rd : Reg) (s : State) :
    writeBack rd v s = .next ((s.setReg rd w).retire .other) := by rw [writeBack, h]

theorem fitsSigned_iff (i : Int) : fitsSigned i = true ↔ -2147483648 ≤ i ∧ i ≤ 2147483647 := by
  rw [fitsSigned, Bool.and_eq_true, decide_eq_true_iff, decide_eq_true_iff]

/-- The overflow test stands before the result: outside the signed range Ov is taken in the state that the instruction began in. -/
theorem raise_or_writeBack {v : Word} {i : Int} (h : v = BitVec.ofInt 32 i) (rd : Reg) (s : State) :
    (if !fitsSigned i then raise .ov s else writeBack rd v s) =
      if -2147483648 ≤ i ∧ i ≤ 2147483647 then .next ((s.setReg rd (BitVec.ofInt 32 i)).retire .other)
      else .next (takeException .ov s) := by
  by_cases hi : -2147483648 ≤ i ∧ i ≤ 2147483647
  · rw [if_pos hi, (fitsSigned_iff i).2 hi]
    exact writeBack_of_eq h rd s
  · rw [if_neg hi, Bool.eq_false_iff.2 (mt (fitsSigned_iff i).1 hi)]
    rfl

/-! ## The instructions -/

/-- Settles O14: the sign extended immediate has the immediate's own value, the zero extended one its unsigned value. -/
theorem immediateResults : Obligations.ImmediateResults := by
  unfold Obligations.ImmediateResults
  intro s rs rt imm
  have hzero := zeroExtend16_eq_ofNat imm
  refine ⟨writeBack_of_eq ?addiu rt s, writeBack_of_eq ?slti rt s, writeBack_of_eq ?sltiu rt s,
    writeBack_of_eq (congrArg _ hzero) rt s, writeBack_of_eq (congrArg _ hzero) rt s,
    writeBack_of_eq (congrArg _ hzero) rt s, writeBack_of_eq (upperImmediate_eq_ofNat imm) rt s⟩
  case addiu => rw [add_eq_ofInt, toInt_signExtend16]
  case slti => rw [truthWord_lessSigned, toInt_signExtend16]
  case sltiu => rw [truthWord_lessUnsigned, signExtend16_eq_ofInt]

/-- Settles O15: each of the three puts the overflow test of its exact result before the write of that result. -/
theorem overflowOrResult : Obligations.OverflowOrResult := by
  unfold Obligations.OverflowOrResult
  intro s rs rt rd imm sum
  refine ⟨?add, ?sub, ?addi⟩
  case add =>
    rintro rfl
    exact raise_or_writeBack (add_eq_ofInt _ _) rd s
  case sub =>
    rintro rfl
    exact raise_or_writeBack (sub_eq_ofInt _ _) rd s
  case addi =>
    rw [← toInt_signExtend16]
    rintro rfl
    exact raise_or_writeBack (add_eq_ofInt _ _) rt s

/-- Settles O16: NOR is the conjunction of the complements. -/
theorem registerResults : Obligations.RegisterResults := by
  unfold Obligations.RegisterResults
  intro s rs rt rd
  exact ⟨writeBack_of_eq (add_eq_ofInt _ _) rd s, writeBack_of_eq (sub_eq_ofInt _ _) rd s,
    writeBack_of_eq (truthWord_lessSigned _ _) rd s, writeBack_of_eq (truthWord_lessUnsigned _ _) rd s,
    writeBack_of_eq rfl rd s, writeBack_of_eq rfl rd s, writeBack_of_eq rfl rd s, writeBack_of_eq BitVec.not_or rd s⟩

/-- Settles O17: the fixed and the variable shifts differ only in where the amount comes from. -/
theorem shiftResults : Obligations.ShiftResults := by
  unfold Obligations.ShiftResults
  intro s rs rt rd sa n hn
  rw [← toNat_shiftAmount] at hn
  subst hn
  exact ⟨writeBack_of_eq (shiftLeft_eq_ofNat _ _) rd s, writeBack_of_eq (ushiftRight_eq_ofNat _ _) rd s,
    writeBack_of_eq (sshiftRight_eq_ofInt _ _) rd s, writeBack_of_eq (shiftLeft_eq_ofNat _ _) rd s,
    writeBack_of_eq (ushiftRight_eq_ofNat _ _) rd s, writeBack_of_eq (sshiftRight_eq_ofInt _ _) rd s⟩

end Sys2Proof.Machine
end

section
/-! PROOFS. Multiply, divide, multiply-add and the HI and LO moves (R260 to R273), and which instructions raise Ov (R231). -/

namespace Sys2Proof.Machine

/-! ## Products, and sums and differences modulo 2^64 (R262, R263, R270 to R273) -/

/-- The signed product of two words does not leave the range of 64 bits. -/
theorem toInt_signedProduct (a b : Word) : (signedProduct a b).toInt = a.toInt * b.toInt := by
  have hlow : -2 ^ 62 ≤ a.toInt * b.toInt := BitVec.le_toInt_mul_toInt
  have hhigh : a.toInt * b.toInt ≤ 2 ^ 62 := BitVec.toInt_mul_toInt_le
  exact BitVec.toInt_ofInt_eq_self (by decide) (by omega) (by omega)

theorem toNat_unsignedProduct (a b : Word) : (unsignedProduct a b).toNat = a.toNat * b.toNat := by
  have hlt : a.toNat * b.toNat < 2 ^ 32 * 2 ^ 32 := Nat.mul_lt_mul'' a.isLt b.isLt
  rw [unsignedProduct, BitVec.toNat_ofNat]
  exact Nat.mod_eq_of_lt hlt

theorem unsignedProduct_eq_ofInt (a b : Word) : unsignedProduct a b = BitVec.ofInt 64 (a.toNat * b.toNat) := by
  rw [unsignedProduct, ← Nat.cast_mul, BitVec.ofInt_natCast]

theorem acc_eq_ofInt (s : State) : s.acc = BitVec.ofInt 64 (s.hi ++ s.lo).toNat := by
  rw [BitVec.ofInt_natCast, BitVec.ofNat_toNat, BitVec.setWidth_eq, State.acc]

theorem acc_add_ofInt (s : State) (i : Int) :
    s.acc + BitVec.ofInt 64 i = BitVec.ofInt 64 ((s.hi ++ s.lo).toNat + i) := by
  rw [acc_eq_ofInt, BitVec.ofInt_add]

theorem acc_sub_ofInt (s : State) (i : Int) :
    s.acc - BitVec.ofInt 64 i = BitVec.ofInt 64 ((s.hi ++ s.lo).toNat - i) := by
  rw [acc_eq_ofInt, Int.sub_eq_add_neg, BitVec.ofInt_add, BitVec.ofInt_neg, BitVec.sub_eq_add_neg]

/-- Settles O18: the model's product is exact, and its sums and differences are those of the integers modulo 2^64. -/
theorem hiLoResults : Obligations.HiLoResults := by
  unfold Obligations.HiLoResults
  intro s rs rt
  have hu := unsignedProduct_eq_ofInt (s.reg rs) (s.reg rt)
  refine ⟨⟨_, toInt_signedProduct _ _, rfl⟩, ⟨_, toNat_unsignedProduct _ _, rfl⟩, ⟨_, acc_add_ofInt s _, rfl⟩,
    ⟨_, ?maddu, rfl⟩, ⟨_, acc_sub_ofInt s _, rfl⟩, ⟨_, ?msubu, rfl⟩, rfl, rfl, rfl, rfl⟩
  case maddu => rw [hu, acc_add_ofInt]
  case msubu => rw [hu, acc_sub_ofInt]

/-! ## Division (R264, R265) -/

/-- Where R264 leaves the result open is where two's complement division has no remainder equation or overflows. -/
theorem signedDivisionOpen_iff (n d : Word) :
    signedDivisionOpen n d = true ↔ d = 0 ∨ n = 0x80000000#32 ∧ d = 0xFFFFFFFF#32 := by
  rw [signedDivisionOpen, Bool.or_eq_true, Bool.and_eq_true, beq_iff_eq, beq_iff_eq, beq_iff_eq]

theorem signedQuotient_eq_sdiv (n d : Word) : signedQuotient n d = n.sdiv d :=
  BitVec.eq_of_toInt_eq (by rw [signedQuotient, BitVec.toInt_ofInt, BitVec.toInt_sdiv])

theorem signedRemainder_eq_srem (n d : Word) : signedRemainder n d = n.srem d := by
  rw [signedRemainder, ← BitVec.toInt_srem, BitVec.ofInt_toInt]

/-- The quotient leaves the range of 32 bits only for -2^31 / -1. -/
theorem toInt_signedQuotient {n d : Word} (h : ¬(n = 0x80000000#32 ∧ d = 0xFFFFFFFF#32)) :
    (signedQuotient n d).toInt = n.toInt.tdiv d.toInt := by
  rw [signedQuotient_eq_sdiv]
  exact BitVec.toInt_sdiv_of_ne_or_ne n d (not_and_or.1 h)

theorem toInt_signedRemainder (n d : Word) : (signedRemainder n d).toInt = n.toInt.tmod d.toInt := by
  rw [signedRemainder_eq_srem, BitVec.toInt_srem]

theorem natAbs_tmod_lt (a : Int) {b : Int} (hb : b ≠ 0) : (a.tmod b).natAbs < b.natAbs := by
  rw [Int.natAbs_tmod]
  exact Nat.mod_lt _ (Int.natAbs_pos.2 hb)

theorem tmod_nonpos {a : Int} (b : Int) (ha : a ≤ 0) : a.tmod b ≤ 0 := by
  have h := Int.tmod_nonneg b (Int.neg_nonneg.2 ha)
  rwa [Int.neg_tmod, Int.neg_nonneg] at h

/-- `HI ## LO` takes its two halves. -/
theorem writeAcc_append (h l : Word) (s : State) :
    writeAcc (h ++ l) s = .next ({ s with hi := h, lo := l }.retire .other) := by
  have hhigh : (h ++ l).extractLsb' 32 32 = h := (extract_high h l 0).trans (extract_all h)
  have hlow : (h ++ l).extractLsb' 0 32 = l := extract_low h l
  rw [writeAcc, State.setAcc, hhigh, hlow]

theorem execDiv_of_open {rs rt : Reg} {s : State} (h : signedDivisionOpen (s.reg rs) (s.reg rt) = true) :
    execDiv rs rt s = .next ((s.openHiLo.drawn 2).retire .other) := if_pos h

theorem execDiv_of_defined {rs rt : Reg} {s : State} (h : ¬signedDivisionOpen (s.reg rs) (s.reg rt) = true) :
    execDiv rs rt s = .next ({ s with
      hi := signedRemainder (s.reg rs) (s.reg rt), lo := signedQuotient (s.reg rs) (s.reg rt) }.retire .other) :=
  (if_neg h).trans (writeAcc_append _ _ s)

theorem execDivu_of_zero {rs rt : Reg} {s : State} (h : s.reg rt = 0) :
    execDivu rs rt s = .next ((s.openHiLo.drawn 2).retire .other) := if_pos h

theorem execDivu_of_ne_zero {rs rt : Reg} {s : State} (h : s.reg rt ≠ 0) :
    execDivu rs rt s =
      .next ({ s with hi := s.reg rs % s.reg rt, lo := s.reg rs / s.reg rt }.retire .other) :=
  (if_neg h).trans (writeAcc_append _ _ s)

/-- Settles O19: DIV is the integer division that truncates toward zero, whose remainder has the dividend's sign. -/
theorem divideResults : Obligations.DivideResults := by
  unfold Obligations.DivideResults
  intro s rs rt
  refine ⟨?div, fun h => execDiv_of_open ((signedDivisionOpen_iff _ _).2 h), ?divu, execDivu_of_zero⟩
  case div =>
    rintro ⟨hd, hmin⟩
    have hdefined := mt (signedDivisionOpen_iff (s.reg rs) (s.reg rt)).1 (not_or.2 ⟨hd, hmin⟩)
    refine ⟨_, _, execDiv_of_defined hdefined, ?_⟩
    rw [toInt_signedQuotient hmin, toInt_signedRemainder]
    have hne : (s.reg rt).toInt ≠ 0 := fun h => hd (BitVec.eq_of_toInt_eq h)
    exact ⟨(Int.tdiv_mul_add_tmod _ _).symm, natAbs_tmod_lt _ hne, Int.tmod_nonneg _, tmod_nonpos _⟩
  case divu =>
    intro hd
    refine ⟨_, _, execDivu_of_ne_zero hd, ?_⟩
    rw [BitVec.toNat_udiv, BitVec.toNat_umod]
    have hne : (s.reg rt).toNat ≠ 0 := fun h => hd (BitVec.eq_of_toNat_eq h)
    exact ⟨(Nat.div_add_mod' _ _).symm, Nat.mod_lt _ (Nat.pos_of_ne_zero hne)⟩

/-! ## What the multiply and divide instructions leave unchanged (R260) -/

/-- The outcome is a completed instruction that has changed nothing but HI, LO, the sequencing of instructions and the free
values drawn. -/
def OnlyHiLo (s : State) (r : Result) : Prop :=
  ∃ t, r = .next t ∧ t.entered = false ∧ SameRegs s t ∧ t.llBit = s.llBit ∧ t.cp0 = s.cp0 ∧ t.cop1 = s.cop1 ∧
    t.cop2 = s.cop2 ∧ t.cop3 = s.cop3 ∧ t.env = s.env ∧ SameMemory s t

namespace OnlyHiLo

variable {s : State}

theorem retired (h l : Word) (n : Nat) : OnlyHiLo s (.next (({ s with hi := h, lo := l }.drawn n).retire .other)) :=
  ⟨_, rfl, rfl, fun _ => rfl, rfl, rfl, rfl, rfl, rfl, rfl, .refl s⟩

theorem writeAcc (v : BitVec 64) : OnlyHiLo s (writeAcc v s) :=
  retired (v.extractLsb' 32 32) (v.extractLsb' 0 32) 0

theorem ite {c : Prop} [Decidable c] {r q : Result} (hr : OnlyHiLo s r) (hq : OnlyHiLo s q) :
    OnlyHiLo s (if c then r else q) := by
  split
  · exact hr
  · exact hq

end OnlyHiLo

/-- Bits 15:6 of an R-type word are its `rd` and `sa`. -/
theorem rd_sa_encR (op func : BitVec 6) (rs rt rd sa : BitVec 5) :
    (encR op rs rt rd sa func).extractLsb' 6 10 = rd ++ sa := by
  rw [← fields_append _ 6 5 5]
  exact congrArg₂ _ (fRd_encR op rs rt rd sa func) (fSa_encR op rs rt rd sa func)

/-- What the eight instructions share: they change HI and LO alone, and `rd` and `sa` of their words are zero. -/
theorem multiplyDivide_onlyHiLo (s : State) (rs rt : Reg) : ∀ i ∈
    ([.mult rs rt, .multu rs rt, .div rs rt, .divu rs rt, .madd rs rt, .maddu rs rt, .msub rs rt, .msubu rs rt] :
      List Instr), OnlyHiLo s (exec i s) ∧ (encode i).extractLsb' 6 10 = 0 := by
  have hblank (func : BitVec 6) : (encR 0 rs rt 0 0 func).extractLsb' 6 10 = 0 := rd_sa_encR ..
  have hdivide {c : Prop} [Decidable c] (v : BitVec 64) :
      OnlyHiLo s (if c then .next ((s.openHiLo.drawn 2).retire .other) else writeAcc v s) :=
    .ite (.retired _ _ 2) (.writeAcc v)
  simp only [List.forall_mem_cons]
  exact ⟨⟨.writeAcc _, hblank _⟩, ⟨.writeAcc _, hblank _⟩, ⟨hdivide _, hblank _⟩, ⟨hdivide _, hblank _⟩,
    ⟨.writeAcc _, hblank _⟩, ⟨.writeAcc _, hblank _⟩, ⟨.writeAcc _, hblank _⟩, ⟨.writeAcc _, hblank _⟩,
    fun _ h => nomatch h⟩

/-! ## Accesses raise no Ov -/

theorem Access.bind_ne_overflow {α β : Type} {a : Access α} {k : α → State → Access β} (ha : a ≠ .raise .ov)
    (hk : ∀ v t, k v t ≠ .raise .ov) : a.bind k ≠ .raise .ov := by
  cases a with
  | ok v t => exact hk v t
  | raise e => exact fun h => ha (congrArg _ (Access.raise.inj h))
  | refuse r => exact nofun

section Accesses

variable (s : State)

theorem addressError_ne_overflow (k : AccessKind) (va : Word) : addressError k va ≠ .ov := by
  cases k <;> exact nofun

theorem checkAddress_ne_overflow (k : AccessKind) (n : Nat) (va : Word) : checkAddress k n va s ≠ .raise .ov := by
  rcases checkAddress_cases s k n va with he | he | he <;> rw [he]
  · exact nofun
  · exact fun h => addressError_ne_overflow k va (Access.raise.inj h)
  · exact nofun

theorem dcacheAccess_ne_overflow (k : AccessKind) (va : Word) : dcacheAccess k va s ≠ .raise .ov := by
  rcases dcacheAccess_cases s k va with ⟨w, -, he⟩ | ⟨-, -, he⟩ | ⟨-, -, he⟩ <;> rw [he] <;> exact nofun

theorem loadBytes_ne_overflow (va : Word) (n : Nat) : loadBytes va n s ≠ .raise .ov := by
  unfold loadBytes
  split
  · exact Access.bind_ne_overflow (dcacheAccess_ne_overflow s .load va) fun _ _ => nofun
  · split <;> exact nofun

theorem storeBytes_ne_overflow (va : Word) (bs : List Byte) : storeBytes va bs s ≠ .raise .ov := by
  unfold storeBytes
  split
  · exact Access.bind_ne_overflow (dcacheAccess_ne_overflow s .store va) fun _ _ => nofun
  · exact nofun

theorem memRead_ne_overflow (va : Word) (n : Nat) : memRead va n s ≠ .raise .ov :=
  Access.bind_ne_overflow (checkAddress_ne_overflow s _ _ _) fun _ t =>
    Access.bind_ne_overflow (loadBytes_ne_overflow t va n) fun _ _ => nofun

theorem memReadPart_ne_overflow (va start : Word) (n : Nat) : memReadPart va start n s ≠ .raise .ov :=
  Access.bind_ne_overflow (checkAddress_ne_overflow s _ _ _) fun _ t =>
    Access.bind_ne_overflow (loadBytes_ne_overflow t start n) fun _ _ => nofun

theorem memWrite_ne_overflow (va : Word) (n : Nat) (v : Word) : memWrite va n v s ≠ .raise .ov :=
  Access.bind_ne_overflow (checkAddress_ne_overflow s _ _ _) fun _ t => storeBytes_ne_overflow t va _

theorem memWritePart_ne_overflow (va start : Word) (n : Nat) (v : Word) : memWritePart va start n v s ≠ .raise .ov :=
  Access.bind_ne_overflow (checkAddress_ne_overflow s _ _ _) fun _ t => storeBytes_ne_overflow t start _

theorem dcacheFill_ne_overflow (k : AccessKind) (w : WaySel) (va : Word) : dcacheFill k w va s ≠ .raise .ov := by
  unfold dcacheFill
  split <;> exact nofun

theorem icacheFill_ne_overflow {e : GeneralException} (he : e ≠ .ov) (k : AccessKind) (w : WaySel) (va : Word) :
    icacheFill k e w va s ≠ .raise .ov := by
  unfold icacheFill
  split
  · exact fun h => he (Access.raise.inj h)
  · exact nofun

theorem onCached_ne_overflow {a : Access Unit} (ha : a ≠ .raise .ov) (va : Word) : onCached va a ≠ .raise .ov := by
  unfold onCached
  split
  · exact ha
  · exact nofun

theorem fillI_ne_overflow (va : Word) : fillI va s ≠ .raise .ov := by
  unfold fillI
  split
  · exact nofun
  · exact Access.bind_ne_overflow (icacheFill_ne_overflow s (e := .dbe) nofun _ _ _) fun _ _ => nofun

theorem fillLockI_ne_overflow (va : Word) : fillLockI va s ≠ .raise .ov := by
  unfold fillLockI
  split
  · exact nofun
  · exact Access.bind_ne_overflow (icacheFill_ne_overflow s (e := .dbe) nofun _ _ _) fun _ _ => nofun

theorem fillD_ne_overflow (va : Word) : fillD va s ≠ .raise .ov := by
  unfold fillD
  split
  · exact nofun
  · exact Access.bind_ne_overflow (dcacheFill_ne_overflow s _ _ _) fun _ _ => nofun

theorem fillLockD_ne_overflow (va : Word) : fillLockD va s ≠ .raise .ov := by
  unfold fillLockD
  split
  · exact nofun
  · exact Access.bind_ne_overflow (dcacheFill_ne_overflow s _ _ _) fun _ _ => nofun

/-- Of the cache operations only the four fills can raise an exception, and theirs is DBE (R402). -/
theorem cacheOperation_ne_overflow (op : CacheOp) (va : Word) : cacheOperation op va s ≠ .raise .ov := by
  cases op with
  | fillI => exact onCached_ne_overflow (fillI_ne_overflow s va) va
  | fillLockI => exact onCached_ne_overflow (fillLockI_ne_overflow s va) va
  | fillD => exact onCached_ne_overflow (fillD_ne_overflow s va) va
  | fillLockD => exact onCached_ne_overflow (fillLockD_ne_overflow s va) va
  | createDirtyD | createDirtyLockD => exact onCached_ne_overflow (a := .ok () _) nofun va
  | indexInvalidateI | indexUnlockI | hitInvalidateI | indexWritebackInvalidateD | indexUnlockD | hitInvalidateD
  | hitWritebackD | hitWritebackInvalidateD | blank func => exact nofun

end Accesses

/-! ## Which instructions raise Ov (R231, R260) -/

theorem code_eq_overflow {e : GeneralException} (h : e.code = GeneralException.ov.code) : e = .ov := by
  cases e with
  | ov => rfl
  | int | adEL | adES | ibe | dbe | sys | bp | ri | cpU | fpe => simp [GeneralException.code] at h

/-- A next state that stands at an exception entry does not stand at that of Ov: its ExcCode is another. -/
def AvoidsOverflow (r : Result) : Prop :=
  ∀ t, r = .next t → t.entered = true → t.cp0.cause.excCode ≠ GeneralException.ov.code

namespace AvoidsOverflow

variable {s u : State} {r q : Result}

theorem ne_takeException (h : AvoidsOverflow r) : r ≠ .next (takeException .ov s) := fun he => h _ he rfl rfl

theorem completed (hu : u.entered = false) : AvoidsOverflow (.next u) := by
  rintro t ⟨⟩ ht
  rw [hu] at ht
  cases ht

theorem raised {e : GeneralException} (he : e ≠ .ov) : AvoidsOverflow (raise e s) := by
  rintro t ⟨⟩ -
  exact mt code_eq_overflow he

theorem refused (x : Refusal) : AvoidsOverflow (.refused x) := by rintro t ⟨⟩

theorem ite {c : Prop} [Decidable c] (hr : AvoidsOverflow r) (hq : AvoidsOverflow q) :
    AvoidsOverflow (if c then r else q) := by
  split
  · exact hr
  · exact hq

theorem writeBack (rd : Reg) (v : Word) : AvoidsOverflow (writeBack rd v s) := completed rfl

theorem requireCp0 (h : AvoidsOverflow r) : AvoidsOverflow (requireCp0 s r) := by
  rcases requireCp0_cases s r with he | he | he <;> rw [he]
  · exact h
  · exact raised nofun
  · exact refused _

theorem requireCop (z : Cop) (h : AvoidsOverflow r) : AvoidsOverflow (requireCop z s r) := by
  rcases requireCop_cases s z r with he | he | he <;> rw [he]
  · exact h
  · exact raised nofun
  · exact refused _

theorem complete {α : Type} {a : Access α} {k : α → State → State} (ha : a ≠ .raise .ov)
    (hk : ∀ v t, (k v t).entered = false) : AvoidsOverflow (a.complete s k) := by
  cases a with
  | ok v t => exact completed (hk v t)
  | raise e => exact raised fun he => ha (congrArg _ he)
  | refuse x => exact refused x

theorem jump (a : Word) (link : State → State) : AvoidsOverflow (jump a link s) := ite (refused _) (completed rfl)

theorem branch (b : Bool) (off : Imm16) : AvoidsOverflow (branch b off s) :=
  ite (refused _) (completed (by cases b <;> rfl))

theorem branchLikely (b : Bool) (off : Imm16) : AvoidsOverflow (branchLikely b off s) :=
  ite (refused _) (completed (by cases b <;> rfl))

theorem load (n : Nat) (f : Word → Word) (base rt : Reg) (off : Imm16) : AvoidsOverflow (load n f base rt off s) :=
  complete (memRead_ne_overflow s _ _) fun _ _ => rfl

theorem loadPart (p : WordPart) (merge : Nat → Word → Word → Word) (va : Word) (rt : Reg) :
    AvoidsOverflow (loadPart p merge va rt s) :=
  complete (memReadPart_ne_overflow s _ _ _) fun _ _ => rfl

theorem execLl (base rt : Reg) (off : Imm16) : AvoidsOverflow (execLl base rt off s) :=
  complete (memRead_ne_overflow s _ _) fun _ _ => rfl

theorem store (n : Nat) (base rt : Reg) (off : Imm16) : AvoidsOverflow (store n base rt off s) :=
  complete (memWrite_ne_overflow s _ _ _) fun _ _ => rfl

theorem storePart (p : WordPart) (va v : Word) : AvoidsOverflow (storePart p va v s) :=
  complete (memWritePart_ne_overflow s _ _ _ _) fun _ _ => rfl

theorem execSc (base rt : Reg) (off : Imm16) : AvoidsOverflow (execSc base rt off s) :=
  ite (complete (memWrite_ne_overflow s _ _ _) fun _ _ => rfl) (complete (checkAddress_ne_overflow s _ _ _) fun _ _ => rfl)

theorem loadToCop (z : Cop) (base rt : Reg) (off : Imm16) : AvoidsOverflow (loadToCop z base rt off s) :=
  requireCop z (complete (memRead_ne_overflow s _ _) fun _ _ => rfl)

theorem storeFromCop (z : Cop) (base rt : Reg) (off : Imm16) : AvoidsOverflow (storeFromCop z base rt off s) :=
  requireCop z (complete (memWrite_ne_overflow s _ _ _) fun _ _ => rfl)

theorem execCache (base : Reg) (op : CacheOp) (off : Imm16) : AvoidsOverflow (execCache base op off s) :=
  requireCp0 <| complete
    (Access.bind_ne_overflow (checkAddress_ne_overflow s _ _ _) fun _ t => cacheOperation_ne_overflow t op _)
    fun _ _ => rfl

theorem moveToCop (z : Cop) (rt rd : Reg) : AvoidsOverflow (moveToCop z rt rd s) := requireCop z (completed rfl)

theorem moveFromCop (z : Cop) (rt rd : Reg) : AvoidsOverflow (moveFromCop z rt rd s) := requireCop z (writeBack _ _)

theorem moveControlToCop (z : Cop) (rt rd : Reg) : AvoidsOverflow (moveControlToCop z rt rd s) :=
  requireCop z (completed (Within.condWriter_ne_entry z))

theorem moveControlFromCop (z : Cop) (rt rd : Reg) : AvoidsOverflow (moveControlFromCop z rt rd s) :=
  requireCop z (writeBack _ _)

theorem copOperation (z : Cop) (cofun : BitVec 25) : AvoidsOverflow (copOperation z cofun s) :=
  requireCop z (completed (Within.condWriter_ne_entry z))

theorem copBranch (z : Cop) (on : Bool) (off : Imm16) : AvoidsOverflow (copBranch z on off s) :=
  requireCop z (branch _ _)

theorem copBranchLikely (z : Cop) (on : Bool) (off : Imm16) : AvoidsOverflow (copBranchLikely z on off s) :=
  requireCop z (branchLikely _ _)

theorem execMtc0 (rt : Reg) (rd : Cp0Reg) : AvoidsOverflow (execMtc0 rt rd s) :=
  requireCp0 (completed (by cases rd <;> rfl))

theorem execEret : AvoidsOverflow (execEret s) :=
  requireCp0 (ite (refused _) (ite (refused _) (completed rfl)))

end AvoidsOverflow

/-- The instructions that trap on overflow (R231). -/
def TrapsOverflow (i : Instr) : Prop :=
  (∃ rs rt rd, i = .add rs rt rd ∨ i = .sub rs rt rd) ∨ ∃ rs rt imm, i = .addi rs rt imm

/-- An instruction other than ADD, ADDI and SUB raises no exception, or one with a cause of its own: that of SYSCALL or BREAK,
of an access or of an unusable coprocessor. -/
theorem exec_avoidsOverflow {i : Instr} (hi : ¬TrapsOverflow i) (s : State) : AvoidsOverflow (exec i s) := by
  cases i with
  | add rs rt rd => exact absurd (.inl ⟨rs, rt, rd, .inl rfl⟩) hi
  | sub rs rt rd => exact absurd (.inl ⟨rs, rt, rd, .inr rfl⟩) hi
  | addi rs rt imm => exact absurd (.inr ⟨rs, rt, imm, rfl⟩) hi
  | addiu rs rt imm | slti rs rt imm | sltiu rs rt imm | andi rs rt imm | ori rs rt imm | xori rs rt imm
  | lui rt imm | addu rs rt rd | subu rs rt rd | slt rs rt rd | sltu rs rt rd | and rs rt rd | or rs rt rd
  | xor rs rt rd | nor rs rt rd | sll rt rd sa | srl rt rd sa | sra rt rd sa | sllv rs rt rd | srlv rs rt rd
  | srav rs rt rd | mfhi rd | mflo rd | max rs rt rd | min rs rt rd | movn rs rt rd | movz rs rt rd | seb rt rd
  | seh rt rd | rotr rt rd sa | rotrv rs rt rd | wsbh rt rd | wsbw rt rd | bitrev rt rd | clz rs rd | clo rs rd =>
    exact .writeBack _ _
  | ext rs rt sizeM1 pos | ins rs rt msb pos => exact .ite (.writeBack _ _) (.writeBack _ _)
  | mult rs rt | multu rs rt | madd rs rt | maddu rs rt | msub rs rt | msubu rs rt | mthi rs | mtlo rs | sync =>
    exact .completed rfl
  | div rs rt | divu rs rt => exact .ite (.completed rfl) (.completed rfl)
  | syscall code => exact .raised nofun
  | brk code => exact .raised nofun
  | lb base rt off | lbu base rt off | lh base rt off | lhu base rt off | lw base rt off => exact .load _ _ _ _ _
  | lwl base rt off | lwr base rt off => exact .loadPart _ _ _ _
  | ll base rt off => exact .execLl base rt off
  | sb base rt off | sh base rt off | sw base rt off => exact .store _ _ _ _
  | swl base rt off | swr base rt off => exact .storePart _ _ _
  | sc base rt off => exact .execSc base rt off
  | cache base op off => exact .execCache base op off
  | j target | jr rs => exact .jump _ _
  | jal target => exact .jump _ fun t => t.setReg 31 (linkValue t.pc)
  | jalr rs rd => exact .jump _ fun t => t.setReg rd (linkValue t.pc)
  | beq rs rt off | bne rs rt off | blez rs off | bgtz rs off | bltz rs off | bgez rs off | bltzal rs off
  | bgezal rs off =>
    exact .branch _ _
  | beql rs rt off | bnel rs rt off | blezl rs off | bgtzl rs off | bltzl rs off | bgezl rs off | bltzall rs off
  | bgezall rs off =>
    exact .branchLikely _ _
  | lwc1 base rt off | lwc2 base rt off | lwc3 base rt off => exact .loadToCop _ base rt off
  | swc1 base rt off | swc2 base rt off | swc3 base rt off => exact .storeFromCop _ base rt off
  | mtc1 rt rd | mtc2 rt rd | mtc3 rt rd => exact .moveToCop _ rt rd
  | mfc1 rt rd | mfc2 rt rd | mfc3 rt rd => exact .moveFromCop _ rt rd
  | ctc1 rt rd | ctc2 rt rd | ctc3 rt rd => exact .moveControlToCop _ rt rd
  | cfc1 rt rd | cfc2 rt rd | cfc3 rt rd => exact .moveControlFromCop _ rt rd
  | cop1 cofun | cop2 cofun | cop3 cofun => exact .copOperation _ cofun
  | bc1f off | bc2f off | bc3f off => exact .copBranch _ false off
  | bc1t off | bc2t off | bc3t off => exact .copBranch _ true off
  | bc1fl off | bc2fl off | bc3fl off => exact .copBranchLikely _ false off
  | bc1tl off | bc2tl off | bc3tl off => exact .copBranchLikely _ true off
  | mfc0 rt rd => exact .requireCp0 (.writeBack _ _)
  | mtc0 rt rd => exact .execMtc0 rt rd
  | eret => exact .execEret

/-- Settles O20: each of the eight ends in the write of HI and LO, and every instruction but ADD, ADDI and SUB avoids Ov. -/
theorem multiplyDivideFrame : Obligations.MultiplyDivideFrame := by
  unfold Obligations.MultiplyDivideFrame
  refine ⟨fun s rs rt i hi => ?frame, fun i s h => ?overflow⟩
  case frame =>
    obtain ⟨⟨t, ht, hn, hregs, hll, hcp0, h1, h2, h3, henv, hmem⟩, hblank⟩ := multiplyDivide_onlyHiLo s rs rt i hi
    exact ⟨t, ht, hn, hregs, hll, hcp0, h1, h2, h3, henv, hmem, hmem.sameBytes henv, hblank⟩
  case overflow =>
    by_contra hi
    exact (exec_avoidsOverflow hi s).ne_takeException h

end Sys2Proof.Machine
end

section
/-! PROOFS. The results of the ALLEGREX extended instructions (43_extended.md R281 to R296): selection, bit fields, bit
permutations and leading counts. -/

namespace Sys2Proof.Machine

/-! ## MAX, MIN, MOVN and MOVZ (R281 to R284) -/

theorem select_eq_ofInt_max (a b : Word) :
    (if lessSigned b a then a else b) = BitVec.ofInt 32 (max a.toInt b.toInt) := by
  rw [max_comm, max_def_lt, apply_ite (BitVec.ofInt 32), BitVec.ofInt_toInt, BitVec.ofInt_toInt]
  simp only [lessSigned, decide_eq_true_eq]

theorem select_eq_ofInt_min (a b : Word) :
    (if lessSigned a b then a else b) = BitVec.ofInt 32 (min a.toInt b.toInt) := by
  rw [min_def_lt, apply_ite (BitVec.ofInt 32), BitVec.ofInt_toInt, BitVec.ofInt_toInt]
  simp only [lessSigned, decide_eq_true_eq]

/-- A register written with its own value is no change. -/
theorem setReg_reg_self (s : State) (i : Reg) : s.setReg i (s.reg i) = s := by
  by_cases hi : i = 0#5
  · rw [hi, s.setReg_zero]
  · rw [State.setReg, State.reg, if_neg hi, if_neg hi, Vector.set_getElem_self]

/-- A move whose condition does not hold completes and leaves the registers. -/
theorem writeBack_own_value {v : Word} {rd : Reg} {s : State} (h : v = s.reg rd) :
    ∃ t, writeBack rd v s = .next t ∧ SameRegs s t ∧ t.pc = s.npc :=
  ⟨s.retire .other, by rw [writeBack_of_eq h, setReg_reg_self], s.reg_congr rfl, rfl⟩

/-- Settles O21: the select of each instruction is the integer maximum, the minimum or one of the two registers. -/
theorem selectAndConditionalMoves : Obligations.SelectAndConditionalMoves := by
  unfold Obligations.SelectAndConditionalMoves
  intro s rs rt rd
  exact ⟨writeBack_of_eq (select_eq_ofInt_max _ _) rd s, writeBack_of_eq (select_eq_ofInt_min _ _) rd s,
    fun h => writeBack_of_eq (if_neg h) rd s, fun h => writeBack_own_value (if_pos h),
    fun h => writeBack_of_eq (if_pos h) rd s, fun h => writeBack_own_value (if_neg h)⟩

/-! ## EXT and INS (R285, R286) -/

theorem getLsbD_lowMask (n : Nat) {i : Nat} (hi : i < 32) : (lowMask n).getLsbD i = decide (i < n) := by
  rw [lowMask, BitVec.getLsbD_ofNat, Nat.testBit_two_pow_sub_one, decide_eq_true hi, Bool.true_and]

theorem getLsbD_extractField (v : Word) (pos size : Nat) {i : Nat} (hi : i < 32) :
    (extractField v pos size).getLsbD i = (decide (i < size) && v.getLsbD (pos + i)) := by
  rw [extractField, BitVec.getLsbD_and, BitVec.getLsbD_ushiftRight, getLsbD_lowMask size hi, Bool.and_comm]

/-- Below the field the shifted mask is 0, from `pos` on it is the mask. -/
theorem getLsbD_insertField (old v : Word) (pos size : Nat) {i : Nat} (hi : i < 32) :
    (insertField old v pos size).getLsbD i =
      if pos ≤ i ∧ i < pos + size then v.getLsbD (i - pos) else old.getLsbD i := by
  have hmask : (lowMask size).getLsbD (i - pos) = decide (i - pos < size) := getLsbD_lowMask size (by omega)
  simp only [insertField, BitVec.getLsbD_or, BitVec.getLsbD_and, BitVec.getLsbD_not, BitVec.getLsbD_shiftLeft, hmask, hi]
  by_cases hpos : i < pos
  · simp [hpos, Nat.not_le.2 hpos]
  · by_cases hsize : i - pos < size
    · have hin : pos ≤ i ∧ i < pos + size := by omega
      simp [hpos, hsize, hin]
    · have hout : ¬(pos ≤ i ∧ i < pos + size) := by omega
      simp [hpos, hsize, hout]

/-- Settles O22: inside the word the field is masked and shifted into place, outside it a free value is drawn. -/
theorem bitFieldResults : Obligations.BitFieldResults := by
  unfold Obligations.BitFieldResults
  intro s rs rt last pos
  refine ⟨fun h => ⟨_, if_neg (Nat.not_lt.2 h), fun i hi => ?ext⟩, fun h => if_pos h,
    fun h => ⟨_, if_neg (Nat.not_lt.2 h), fun i hi => ?ins⟩, fun h => if_pos h⟩
  case ext => rw [getLsbD_extractField _ _ _ hi, decide_eq_decide.2 Nat.lt_succ_iff]
  case ins =>
    have hlast : i < pos.toNat + (last.toNat - pos.toNat + 1) ↔ i ≤ last.toNat := by omega
    simp only [getLsbD_insertField _ _ _ _ hi, hlast]

/-! ## SEB, SEH and the rotations (R287 to R291) -/

/-- The sign extension of the low `n + 1` bits repeats bit `n`. -/
theorem getLsbD_signExtend_low (v : Word) (n : Nat) {i : Nat} (hi : i < 32) :
    ((v.extractLsb' 0 (n + 1)).signExtend 32).getLsbD i = v.getLsbD (min i n) := by
  rw [BitVec.getLsbD_signExtend, BitVec.msb_eq_getLsbD_last, BitVec.getLsbD_extractLsb', BitVec.getLsbD_extractLsb',
    decide_eq_true hi, Bool.true_and]
  by_cases h : i < n + 1
  · simp [h, min_eq_left (Nat.le_of_lt_succ h)]
  · simp [h, min_eq_right (show n ≤ i by omega)]

/-- A rotation brings each bit from `n` places above, past bit 31 from bit 0 on. -/
theorem getLsbD_rotateRight (v : Word) (n : BitVec 5) {i : Nat} (hi : i < 32) :
    (rotateRight v n).getLsbD i = v.getLsbD ((i + n.toNat) % 32) := by
  have hn : n.toNat < 32 := n.isLt
  rw [rotateRight, BitVec.getLsbD_or, BitVec.getLsbD_ushiftRight, BitVec.getLsbD_shiftLeft]
  by_cases h : i + n.toNat < 32
  · have hlow : i < 32 - n.toNat := by omega
    rw [Nat.mod_eq_of_lt h, Nat.add_comm]
    simp [hlow]
  · have hhigh : ¬i < 32 - n.toNat := by omega
    have hwrap : (i + n.toNat) % 32 = i - (32 - n.toNat) := by omega
    rw [BitVec.getLsbD_of_ge v (n.toNat + i) (by omega), hwrap]
    simp [hhigh, hi]

/-! ## WSBH, WSBW and BITREV (R292 to R294) -/

/-- A byte of `v` put below `x`. -/
theorem getLsbD_append_byte {n : Nat} (x : BitVec n) (v : Word) (p i : Nat) :
    (x ++ v.extractLsb' p 8).getLsbD i = if i < 8 then v.getLsbD (p + i) else x.getLsbD (i - 8) := by
  rw [BitVec.getLsbD_append, BitVec.getLsbD_extractLsb']
  by_cases h : i < 8 <;> simp [h]

/-- Four bytes of a word in any order: where each bit comes from. -/
theorem getLsbD_bytes (v : Word) (p₃ p₂ p₁ p₀ : Nat) {i : Nat} (hi : i < 32) :
    (v.extractLsb' p₃ 8 ++ v.extractLsb' p₂ 8 ++ v.extractLsb' p₁ 8 ++ v.extractLsb' p₀ 8).getLsbD i =
      v.getLsbD (if i < 8 then p₀ + i else if i < 16 then p₁ + (i - 8) else if i < 24 then p₂ + (i - 16)
        else p₃ + (i - 24)) := by
  have h₁ : i - 8 < 8 ↔ i < 16 := by omega
  have h₂ : i - 16 < 8 ↔ i < 24 := by omega
  have h₃ : i - 24 < 8 := by omega
  simp only [getLsbD_append_byte, Nat.sub_sub, Nat.reduceAdd, h₁, h₂, BitVec.getLsbD_extractLsb', h₃, decide_true,
    Bool.true_and, apply_ite v.getLsbD]

theorem getLsbD_swapBytesInHalves (v : Word) {i : Nat} (hi : i < 32) :
    (swapBytesInHalves v).getLsbD i = v.getLsbD (if i / 8 % 2 = 0 then i + 8 else i - 8) := by
  rw [swapBytesInHalves, getLsbD_bytes v 16 24 0 8 hi]
  congr 1
  split_ifs <;> omega

theorem getLsbD_swapBytes (v : Word) {i : Nat} (hi : i < 32) :
    (swapBytes v).getLsbD i = v.getLsbD (8 * (3 - i / 8) + i % 8) := by
  rw [swapBytes, getLsbD_bytes v 0 8 16 24 hi]
  congr 1
  split_ifs <;> omega

theorem getLsbD_reverseBits (v : Word) (n : Nat) {i : Nat} (hi : i < 32) :
    (reverseBits v n).getLsbD i = (decide (i < n) && v.getLsbD (n - 1 - i)) := by
  induction n generalizing i with
  | zero => simp [reverseBits]
  | succ n ih =>
    simp only [reverseBits, BitVec.getLsbD_or, BitVec.getLsbD_shiftLeft, BitVec.getLsbD_setWidth, BitVec.getLsbD_ofBool]
    cases i with
    | zero => simp
    | succ i =>
      rw [Nat.add_sub_cancel, ih (by omega)]
      have hbit : n - 1 - i = n - (i + 1) := by omega
      simp [hi, hbit]

/-! ## CLZ and CLO (R295, R296) -/

theorem leadingCount_le (b : Bool) (v : Word) (n : Nat) : leadingCount b v n ≤ n := by
  induction n with
  | zero => exact le_rfl
  | succ n ih =>
    rw [leadingCount]
    split <;> omega

theorem getLsbD_of_leadingCount (b : Bool) (v : Word) {n i : Nat} (hlow : n - leadingCount b v n ≤ i) (hi : i < n) :
    v.getLsbD i = b := by
  induction n with
  | zero => exact absurd hi (Nat.not_lt_zero i)
  | succ n ih =>
    rw [leadingCount] at hlow
    by_cases hbit : v.getLsbD n = b
    · rw [if_pos hbit] at hlow
      rcases Nat.lt_succ_iff_lt_or_eq.1 hi with h | rfl
      · exact ih (by omega) h
      · exact hbit
    · rw [if_neg hbit] at hlow
      omega

/-- Where the count ends before the last bit, it ends at a bit of the other value. -/
theorem getLsbD_after_leadingCount (b : Bool) (v : Word) {n : Nat} (h : leadingCount b v n < n) :
    v.getLsbD (n - 1 - leadingCount b v n) = !b := by
  induction n with
  | zero => exact absurd h (Nat.not_lt_zero _)
  | succ n ih =>
    rw [leadingCount] at h ⊢
    by_cases hbit : v.getLsbD n = b
    · rw [if_pos hbit] at h ⊢
      have hnext : n + 1 - 1 - (leadingCount b v n + 1) = n - 1 - leadingCount b v n := by omega
      rw [hnext, ih (by omega)]
    · rw [if_neg hbit]
      exact Bool.eq_not.2 hbit

/-- The leading count of a word in the form that CLZ and CLO are stated in. -/
theorem leadingCount_spec (b : Bool) (v : Word) :
    leadingCount b v 32 ≤ 32 ∧ (∀ i, 32 - leadingCount b v 32 ≤ i → i < 32 → v.getLsbD i = b) ∧
      (leadingCount b v 32 < 32 → v.getLsbD (31 - leadingCount b v 32) = !b) :=
  ⟨leadingCount_le b v 32, fun _ => getLsbD_of_leadingCount b v, getLsbD_after_leadingCount b v⟩

/-- Settles O23: where each bit of the permuted word comes from, and what the two counts count. -/
theorem bitPermutationsAndCounts : Obligations.BitPermutationsAndCounts := by
  unfold Obligations.BitPermutationsAndCounts
  intro s rs rt rd sa
  obtain ⟨hclz, hzeros, hone⟩ := leadingCount_spec false (s.reg rs)
  obtain ⟨hclo, hones, hzero⟩ := leadingCount_spec true (s.reg rs)
  refine ⟨⟨_, rfl, fun _ => getLsbD_signExtend_low _ 7⟩, ⟨_, rfl, fun _ => getLsbD_signExtend_low _ 15⟩,
    ⟨_, rfl, fun _ => getLsbD_rotateRight _ sa⟩, ⟨_, rfl, fun i hi => ?rotrv⟩,
    ⟨_, rfl, fun _ => getLsbD_swapBytesInHalves _⟩, ⟨_, rfl, fun _ => getLsbD_swapBytes _⟩,
    ⟨_, rfl, fun i hi => ?bitrev⟩, ⟨_, hclz, rfl, hzeros, hone⟩, ⟨_, hclo, rfl, hones, hzero⟩⟩
  case rotrv => rw [getLsbD_rotateRight _ _ hi, toNat_shiftAmount, Nat.add_mod_mod]
  case bitrev => rw [getLsbD_reverseBits _ 32 hi, decide_eq_true hi, Bool.true_and]

end Sys2Proof.Machine
end

section
/-! PROOFS. The jumps and branches of the core (44_jump_branch.md R300 to R329): their targets, conditions and links, and
what they leave unchanged. -/

namespace Sys2Proof.Machine

/-! ## Targets (R301, R302) -/

/-- Two zero bits below the offset are a multiplication by 4. -/
theorem branchTarget_eq_ofInt (a : Word) (off : Imm16) :
    branchTarget a off = BitVec.ofInt 32 (a.toNat + 4 + 4 * off.toInt) := by
  have hoff : (off ++ 0#2).toInt = 4 * off.toInt := by
    rw [BitVec.toInt_append_zero]
    omega
  calc branchTarget a off
    _ = a + 4 + BitVec.ofInt 32 (4 * off.toInt) := by rw [branchTarget, BitVec.signExtend, hoff]
    _ = BitVec.ofInt 32 (a.toNat + 4 + 4 * off.toInt) := by
      rw [BitVec.ofInt_add, BitVec.ofInt_add, BitVec.ofInt_natCast, BitVec.ofNat_toNat, BitVec.setWidth_eq]
      rfl

/-- The top four bits of A + 4 are its 256 MB region. -/
theorem jumpTarget_eq_ofNat (a : Word) (target : BitVec 26) :
    jumpTarget a target = BitVec.ofNat 32 ((a + 4).toNat / 0x10000000 * 0x10000000 + target.toNat * 4) := by
  have ha := (a + 4).isLt
  have htarget := target.isLt
  apply BitVec.eq_of_toNat_eq
  simp only [jumpTarget, toNat_append, BitVec.extractLsb'_toNat, BitVec.toNat_ofNat, Nat.shiftRight_eq_div_pow]
  omega

/-! ## Conditions (R309) -/

theorem isNegative_iff (v : Word) : isNegative v = true ↔ v.toInt < 0 := decide_eq_true_iff

theorem isPositive_iff (v : Word) : isPositive v = true ↔ 0 < v.toInt := decide_eq_true_iff

theorem not_isNegative_iff (v : Word) : (!isNegative v) = true ↔ 0 ≤ v.toInt := by
  rw [Bool.not_eq_true', ← Bool.not_eq_true, isNegative_iff, Int.not_lt]

theorem not_isPositive_iff (v : Word) : (!isPositive v) = true ↔ v.toInt ≤ 0 := by
  rw [Bool.not_eq_true', ← Bool.not_eq_true, isPositive_iff, Int.not_lt]

theorem isNegative_iff_signBit (v : Word) : isNegative v = true ↔ v.getLsbD 31 = true := by
  rw [isNegative, ← BitVec.msb_eq_toInt, BitVec.msb_eq_getLsbD_last]

theorem isPositive_iff_signBit (v : Word) : isPositive v = true ↔ v.getLsbD 31 = false ∧ v ≠ 0 := by
  have hsign : 0 ≤ v.toInt ↔ v.getLsbD 31 = false := by
    rw [← Int.not_lt, ← isNegative_iff, isNegative_iff_signBit, Bool.not_eq_true]
  have hzero : 0 ≠ v.toInt ↔ v ≠ 0 := by
    rw [ne_comm, ← BitVec.toInt_zero (w := 32)]
    exact BitVec.toInt_ne
  rw [isPositive_iff, Int.lt_iff_le_and_ne, hsign, hzero]

/-! ## Outside a delay slot (R300, R304) -/

section OutsideSlot

variable {s : State} (hs : s.inDelaySlot = false)

include hs

theorem jump_outside_slot (a : Word) (link : State → State) : jump a link s = .next ((link s).transfer a) :=
  if_neg (Bool.eq_false_iff.1 hs)

theorem branch_outside_slot (b : Bool) (off : Imm16) :
    branch b off s = .next (if b then s.transfer (branchTarget s.pc off) else s.fallThrough) :=
  if_neg (Bool.eq_false_iff.1 hs)

theorem branchLikely_outside_slot (b : Bool) (off : Imm16) :
    branchLikely b off s = .next (if b then s.transfer (branchTarget s.pc off) else s.nullify) :=
  if_neg (Bool.eq_false_iff.1 hs)

theorem branchResult_of_iff {b : Bool} {taken : Prop} (h : b = true ↔ taken) (off : Imm16) :
    BranchResult taken off s (branch b off s) := by
  rw [branch_outside_slot hs, branchTarget_eq_ofInt]
  exact ⟨fun ht => by rw [if_pos (h.2 ht)], fun ht => by rw [if_neg (mt h.1 ht)]⟩

theorem likelyResult_of_iff {b : Bool} {taken : Prop} (h : b = true ↔ taken) (off : Imm16) :
    LikelyResult taken off s (branchLikely b off s) := by
  rw [branchLikely_outside_slot hs, branchTarget_eq_ofInt]
  exact ⟨fun ht => by rw [if_pos (h.2 ht)], fun ht => by rw [if_neg (mt h.1 ht)]⟩

/-- An and-link branch that is taken (R320). -/
theorem andLink_taken {b : Bool} (hb : b = true) (off : Imm16) :
    branch b off (s.branchLink b) =
        .next ((s.setReg 31#5 (s.pc + 8)).transfer (BitVec.ofInt 32 (s.pc.toNat + 4 + 4 * off.toInt))) ∧
      branchLikely b off (s.branchLink b) =
        .next ((s.setReg 31#5 (s.pc + 8)).transfer (BitVec.ofInt 32 (s.pc.toNat + 4 + 4 * off.toInt))) := by
  have hu : (s.branchLink b).inDelaySlot = false := hs
  rw [branch_outside_slot hu, branchLikely_outside_slot hu, branchTarget_eq_ofInt, hb]
  exact ⟨rfl, rfl⟩

/-- An and-link branch that is not taken: the free choice decides what r31 holds (R320, D24). -/
theorem andLink_not_taken {b : Bool} (hb : b = false) (off : Imm16) :
    ∃ r31, (r31 = s.reg 31#5 ∨ r31 = s.pc + 8) ∧
      branch b off (s.branchLink b) = .next (((s.drawn 1).setReg 31#5 r31).fallThrough) ∧
      branchLikely b off (s.branchLink b) = .next (((s.drawn 1).setReg 31#5 r31).nullify) := by
  have hu : (s.branchLink b).inDelaySlot = false := hs
  rw [branch_outside_slot hu, branchLikely_outside_slot hu, hb]
  exact ⟨if s.freeBit then s.pc + 8 else s.reg 31#5, (ite_eq_or_eq _ _ _).symm, rfl, rfl⟩

end OutsideSlot

/-- Settles O24: the two forms of the target, and the link that JAL and JALR write before the transfer. -/
theorem jumpResults : Obligations.JumpResults := by
  unfold Obligations.JumpResults
  rintro s target rs rd v hs rfl
  rw [← jumpTarget_eq_ofNat]
  exact ⟨jump_outside_slot hs _ _, jump_outside_slot hs _ fun t => t.setReg 31 (linkValue t.pc),
    jump_outside_slot hs _ _, jump_outside_slot hs _ fun t => t.setReg rd (linkValue t.pc)⟩

/-- Settles O25: each branch's test is the condition that it is stated with. -/
theorem branchResults : Obligations.BranchResults := by
  unfold Obligations.BranchResults
  intro s rs rt off hs
  exact ⟨branchResult_of_iff hs beq_iff_eq off, branchResult_of_iff hs bne_iff_ne off,
    branchResult_of_iff hs (not_isPositive_iff _) off, branchResult_of_iff hs (isPositive_iff _) off,
    branchResult_of_iff hs (isNegative_iff _) off, branchResult_of_iff hs (not_isNegative_iff _) off,
    likelyResult_of_iff hs beq_iff_eq off, likelyResult_of_iff hs bne_iff_ne off,
    likelyResult_of_iff hs (not_isPositive_iff _) off, likelyResult_of_iff hs (isPositive_iff _) off,
    likelyResult_of_iff hs (isNegative_iff _) off, likelyResult_of_iff hs (not_isNegative_iff _) off⟩

/-- Settles O26: of the two signs one pair of branches is taken and the other is not. -/
theorem andLinkResults : Obligations.AndLinkResults := by
  unfold Obligations.AndLinkResults
  rintro s rs off v hs rfl
  refine ⟨fun h => ?negative, fun h => ?nonnegative⟩
  case negative =>
    have hneg := (isNegative_iff _).2 h
    obtain ⟨hltz, hltzl⟩ := andLink_taken hs hneg off
    exact ⟨hltz, hltzl, andLink_not_taken hs (congrArg not hneg) off⟩
  case nonnegative =>
    have hnot := (not_isNegative_iff _).2 h
    obtain ⟨hgez, hgezl⟩ := andLink_taken hs hnot off
    exact ⟨hgez, hgezl, andLink_not_taken hs (Bool.eq_false_of_not_eq_true' hnot) off⟩

/-! ## What the transfers leave unchanged (R305, R25 to R27) -/

/-- The outcome in the state `s` is a refusal in a delay slot, and elsewhere a completed instruction (R305). -/
def CompletesOutsideSlot (s : State) (r : Result) : Prop :=
  ∃ t : State, t.entered = false ∧ r = if s.inDelaySlot then .refused .transferInDelaySlot else .next t

namespace CompletesOutsideSlot

variable {s u : State}

theorem jump (a : Word) (link : State → State) : CompletesOutsideSlot s (jump a link s) := ⟨_, rfl, rfl⟩

theorem branch (hu : u.inDelaySlot = s.inDelaySlot) (b : Bool) (off : Imm16) :
    CompletesOutsideSlot s (branch b off u) :=
  ⟨if b then u.transfer (branchTarget u.pc off) else u.fallThrough, by cases b <;> rfl, by rw [← hu]; rfl⟩

theorem branchLikely (hu : u.inDelaySlot = s.inDelaySlot) (b : Bool) (off : Imm16) :
    CompletesOutsideSlot s (branchLikely b off u) :=
  ⟨if b then u.transfer (branchTarget u.pc off) else u.nullify, by cases b <;> rfl, by rw [← hu]; rfl⟩

end CompletesOutsideSlot

/-- Each of the twenty is a jump, a branch or a branch-likely. -/
theorem exec_completesOutsideSlot {i : Instr} (hi : i.isTransfer = true) (s : State) :
    CompletesOutsideSlot s (exec i s) := by
  cases i with
  | j target | jr rs => exact .jump _ _
  | jal target => exact .jump _ fun t => t.setReg 31 (linkValue t.pc)
  | jalr rs rd => exact .jump _ fun t => t.setReg rd (linkValue t.pc)
  | beq rs rt off | bne rs rt off | blez rs off | bgtz rs off | bltz rs off | bgez rs off | bltzal rs off
  | bgezal rs off =>
    exact .branch rfl _ _
  | beql rs rt off | bnel rs rt off | blezl rs off | bgtzl rs off | bltzl rs off | bgezl rs off | bltzall rs off
  | bgezall rs off =>
    exact .branchLikely rfl _ _
  | _ => cases hi

/-- No transfer writes HI, LO, LLbit, a CP0 register, a coprocessor or memory. -/
theorem isTransfer_writes_none {i : Instr} (hi : i.isTransfer = true) :
    i.writesHiLo = false ∧ ¬WritesLlBit i ∧ ¬WritesCp0 i ∧ i.changesCop = none ∧ i.usesMemory = false := by
  have hll : ¬WritesLlBit i := by rintro (⟨_, _, _, rfl | rfl⟩ | rfl) <;> cases hi
  have hcp0 : ¬WritesCp0 i := by rintro (⟨_, _, rfl⟩ | rfl) <;> cases hi
  cases i with
  | j | jr | jal | jalr | beq | bne | blez | bgtz | bltz | bgez | bltzal | bgezal | beql | bnel | blezl | bgtzl
  | bltzl | bgezl | bltzall | bgezall => exact ⟨rfl, hll, hcp0, rfl, rfl⟩
  | _ => cases hi

theorem Footprint.sameSpecial_of_isTransfer {i : Instr} {s t : State} (h : Footprint i s t) (hi : i.isTransfer = true) :
    SameSpecial s t := by
  obtain ⟨hhl, hll, hcp0, hcop, -⟩ := isTransfer_writes_none hi
  obtain ⟨hhi, hlo⟩ := h.hiLo hhl
  have hsame (z : Cop) : t.cop z = s.cop z := h.cop z (by rw [hcop]; exact nofun)
  exact ⟨hhi, hlo, h.llBit hll, h.cp0 hcp0, hsame .cp1, hsame .cp2, hsame .cp3, h.env⟩

/-- A state that differs only in the sequencing of instructions has the same registers and memory. -/
theorem same_of_sequencing {s t : State}
    (h : t = { s with
      pc := t.pc, npc := t.npc, inDelaySlot := t.inDelaySlot, last1 := t.last1, last2 := t.last2 }) :
    SameRegs s t ∧ SameSpecial s t ∧ SameMemory s t ∧ SameBytes s t := by
  have hmem : SameMemory s t := by rw [h]; exact .refl s
  have hspecial : SameSpecial s t := by rw [h]; exact ⟨rfl, rfl, rfl, rfl, rfl, rfl, rfl, rfl⟩
  exact ⟨s.reg_congr (by rw [h]), hspecial, hmem, hmem.sameBytes (by rw [h])⟩

/-- Settles O27: a transfer that completes keeps to its footprint, and the four ends of an instruction change only the
sequencing. -/
theorem transferFrame : Obligations.TransferFrame := by
  unfold Obligations.TransferFrame
  refine ⟨fun i s hi => ?exec, fun s t v => ?ends⟩
  case exec =>
    obtain ⟨t, hn, ht⟩ := exec_completesOutsideSlot hi s
    refine ⟨fun hs => ?refused, fun hs => ?completes, fun v => ⟨isNegative_iff_signBit v, isPositive_iff_signBit v⟩⟩
    case refused => rw [ht, if_pos hs]
    case completes =>
      rw [if_neg (Bool.eq_false_iff.1 hs)] at ht
      obtain ⟨-, -, -, -, hm⟩ := isTransfer_writes_none hi
      have hf := exec_footprint ht hn
      exact ⟨t, ht, hn, hf.sameSpecial_of_isTransfer hi, hf.memory hm, (hf.memory hm).sameBytes hf.env, hf.regs⟩
  case ends =>
    refine ⟨?transfer, ?fallThrough, ?nullify, fun k => ?retire, fun k => ?unchanged⟩
    case transfer => rintro rfl; exact ⟨rfl, rfl, rfl⟩
    case fallThrough => rintro rfl; exact ⟨rfl, rfl, rfl⟩
    case nullify => rintro rfl; exact ⟨rfl, rfl, rfl⟩
    case retire => rintro rfl; exact ⟨rfl, rfl, rfl⟩
    case unchanged => rintro (rfl | rfl | rfl | rfl) <;> exact same_of_sequencing rfl

end Sys2Proof.Machine
end

section
/-! PROOFS. SYSCALL, BREAK and SYNC (45_special.md): the exceptions, and what memory holds once both buffers are empty. -/

namespace Sys2Proof.Machine

/-! ## SYSCALL and BREAK (R340, R341) -/

theorem exec_syscall (code : BitVec 20) (s : State) : exec (.syscall code) s = .next (takeException .sys s) := rfl

theorem exec_brk (code : BitVec 20) (s : State) : exec (.brk code) s = .next (takeException .bp s) := rfl

theorem takeException_excCode (e : GeneralException) (s : State) : (takeException e s).cp0.cause.excCode = e.code := by
  rw [takeException_cause]

/-- Settles O28: neither meaning looks at the code field or at the mode, and Cause takes the exception's own code. -/
theorem systemCallAndBreak : Obligations.SystemCallAndBreak := by
  unfold Obligations.SystemCallAndBreak
  intro s code
  exact ⟨exec_syscall code s, exec_brk code s, takeException_excCode .sys s, takeException_excCode .bp s⟩

/-! ## Bytes where there is no RAM -/

section NoRam

variable (v : Environment) {a : Nat} (ha : (v.region a).kind.writable = false)
include ha

theorem read_writeBytes_of_not_writable (m : Memory) (k : Nat) (bs : List Byte) :
    (v.writeBytes m k bs).read a = m.read a := by
  induction bs generalizing m k with
  | nil => rfl
  | cons b bs ih =>
    rw [Environment.writeBytes, ih]
    by_cases hk : a = k
    · rw [Environment.writeByte, if_neg (by simp [← hk, ha])]
    · exact v.read_writeByte_ne m b hk

theorem read_commitStores_of_not_writable (m : Memory) (es : List NcStore) : (v.commitStores m es).read a = m.read a := by
  induction es generalizing m with
  | nil => rfl
  | cons e es ih => rw [Environment.commitStores, ih, Environment.commitStore, read_writeBytes_of_not_writable v ha]

end NoRam

theorem read_memAfterWriteback_of_not_writable {s : State} {a : Nat} (ha : s.writableAt a = false) :
    s.memAfterWriteback.read a = s.mem.read a := by
  unfold State.memAfterWriteback
  split
  · rfl
  · exact read_writeBytes_of_not_writable s.env ha _ _ _

/-! ## Bytes of RAM that a buffer held -/

/-- Of several buffered stores to a byte of RAM the newest decides, because they reach memory oldest first (R342). -/
theorem read_commitStores_newest (v : Environment) (m : Memory) (es fs : List NcStore) {e : NcStore} (he : e.wf = true)
    {k : Nat} (hk : k < e.bytes.length) (hram : (v.region (physical e.va + k)).kind.writable = true)
    (hnew : physical e.va + k ∉ fs.flatMap NcStore.physicalBytes) :
    (v.commitStores m (es ++ e :: fs)).read (physical e.va + k) = e.bytes[k] := by
  rw [commitStores_append, Environment.commitStores, read_commitStores_outside v _ fs hnew]
  exact read_writeBytes_at v _ _ _ (physicalBytes_le he) k hk hram

/-- A whole line lies in physical memory. -/
theorem physical_add_line_le {va : Word} (h0 : lineOffset va = 0) : physical va + 64 ≤ 2 ^ 30 := by
  have hline : physical va = physicalLine va := by rw [physical_offset va, h0]; rfl
  rw [hline]
  exact physicalLine_lt va

theorem read_memAfterWriteback_line {s : State} {w : Writeback} (hw : s.writeback = some w) (h0 : lineOffset w.va = 0)
    {k : Nat} (hk : k < 64) (hram : s.writableAt (physical w.va + k) = true) :
    s.memAfterWriteback.read (physical w.va + k) = w.data[k] := by
  have hin : (physical w.va ≤ physical w.va + k ∧ physical w.va + k < physical w.va + 64) ∧
      (s.env.region (physical w.va + k)).kind.writable = true := ⟨by omega, hram⟩
  simp only [State.memAfterWriteback, hw]
  rw [Environment.read_writeLine _ _ _ _ (physical_add_line_le h0), dif_pos hin]
  simp only [Nat.add_sub_cancel_left]

/-! ## SYNC (R342) -/

/-- The state with both buffers emptied to memory, the writeback line before the stores (log entry 15). -/
def State.synced (s : State) : State := s.drainWriteback.drainStores

theorem exec_sync (s : State) : exec .sync s = .next (s.synced.retire .other) := rfl

theorem synced_mem (s : State) : s.synced.mem = s.env.commitStores s.memAfterWriteback s.stores := rfl

/-- A byte that no buffered store covers is what the writeback buffer has left of it. -/
theorem read_synced_of_not_stored {s : State} {a : Nat} (ha : a ∉ s.stores.flatMap NcStore.physicalBytes) :
    s.synced.mem.read a = s.memAfterWriteback.read a := by
  rw [synced_mem, read_commitStores_outside _ _ _ ha]

theorem read_synced_of_not_writable {s : State} {a : Nat} (ha : s.writableAt a = false) :
    s.synced.mem.read a = s.mem.read a := by
  rw [synced_mem, read_commitStores_of_not_writable s.env ha, read_memAfterWriteback_of_not_writable ha]

/-- Settles O29: SYNC changes nothing but memory and the two buffers, and memory ends with the writeback line under the stores,
of which the newest to a byte comes last. -/
theorem syncDrainsBuffers : Obligations.SyncDrainsBuffers := by
  unfold Obligations.SyncDrainsBuffers
  intro s
  refine ⟨s.synced.retire .other, exec_sync s, rfl, rfl, rfl, rfl, rfl, rfl, fun _ => rfl,
    ⟨rfl, rfl, rfl, rfl, rfl, rfl, rfl, rfl⟩, ChangesInFlightOnly.sync s, fun hs => ⟨?stores, ?line, ?noRam⟩⟩
  case stores =>
    intro es e fs hsplit k hk hram hnew
    have he : e.wf = true := List.all_eq_true.1 hs.stores e (by simp [hsplit])
    rw [retire_mem, synced_mem, hsplit]
    exact read_commitStores_newest s.env _ es fs he hk hram hnew
  case line =>
    intro w hw k hk hram hnot
    rw [retire_mem, read_synced_of_not_stored hnot]
    exact read_memAfterWriteback_line hw (hs.line w hw) hk hram
  case noRam =>
    intro a ha
    exact read_synced_of_not_writable ha

end Sys2Proof.Machine
end

section
/-! PROOFS. The instructions by which the CPU reaches coprocessors 1, 2 and 3 (46_coprocessor.md): the usable check, the moves,
the loads and stores, the control instructions and the branches. -/

namespace Sys2Proof.Machine

/-! ## The usable check of each class (R350, R362, R379) -/

theorem requireCop_unusable {z : Cop} {s : State} {k : Result} (hu : s.copUsable z = false) :
    requireCop z s k = raise (.cpU (copNumber z)) s := if_neg (Bool.eq_false_iff.1 hu)

/-- Coprocessor 3 is reserved (D21). -/
theorem requireCop_cp3_usable {s : State} {k : Result} (hu : s.copUsable .cp3 = true) :
    requireCop .cp3 s k = .refused .cop3Absent := if_pos hu

/-- The usable check of its class stands before everything else that a coprocessor instruction does. (Coprocessor 3 never gets
beyond it, so that any `k` will do there.) -/
theorem exec_of_copClass {i : Instr} {z : BitVec 2} (h : i.copClass = some z) (s : State) :
    ∃ k, (z = 0 ∧ exec i s = requireCp0 s k) ∨ ∃ c, z = copNumber c ∧ exec i s = requireCop c s k := by
  cases i with
  | mfc0 | mtc0 | eret | cache => exact ⟨_, .inl ⟨(Option.some.inj h).symm, rfl⟩⟩
  | lwc1 | swc1 | mtc1 | mfc1 | ctc1 | cfc1 | cop1 | bc1f | bc1t | bc1fl | bc1tl =>
    exact ⟨_, .inr ⟨.cp1, (Option.some.inj h).symm, rfl⟩⟩
  | lwc2 | swc2 | mtc2 | mfc2 | ctc2 | cfc2 | cop2 | bc2f | bc2t | bc2fl | bc2tl =>
    exact ⟨_, .inr ⟨.cp2, (Option.some.inj h).symm, rfl⟩⟩
  | lwc3 | swc3 | mtc3 | mfc3 | ctc3 | cfc3 | cop3 | bc3f | bc3t | bc3fl | bc3tl =>
    exact ⟨.refused .cop3Absent, .inr ⟨.cp3, (Option.some.inj h).symm, rfl⟩⟩
  | _ => cases h

/-- The coprocessor's number goes to Cause.CE (R444). -/
theorem takeException_cpU_ce (z : BitVec 2) (s : State) : (takeException (.cpU z) s).cp0.cause.ce = z := by
  rw [takeException_cause]
  rfl

/-- Settles O43: the check of its class decides what a coprocessor instruction does where its coprocessor is unusable, and in
every state where it is coprocessor 3. -/
theorem coprocessorUnusable : Obligations.CoprocessorUnusable := by
  unfold Obligations.CoprocessorUnusable
  refine ⟨fun i s z hi hc hm => ⟨?unusable, takeException_cpU_ce z s, takeException_excCode (.cpU z) s⟩,
    fun i s hi hc => ?reserved⟩
  case unusable =>
    obtain ⟨k, ⟨rfl, he⟩ | ⟨c, rfl, he⟩⟩ := exec_of_copClass hi s
    · rw [he, requireCp0_unusable hc (hm rfl), raise]
    · rw [he, requireCop_unusable hc, raise]
  case reserved =>
    obtain ⟨k, ⟨h0, -⟩ | ⟨c, h3, he⟩⟩ := exec_of_copClass hi s
    · exact absurd h0 (by decide)
    · cases c with
      | cp1 | cp2 => exact absurd h3 (by decide)
      | cp3 => rw [he, requireCop_cp3_usable hc]

/-! ## Writing a coprocessor register (R33) -/

section SetCpr

variable (s : State) (z : Cop) (n : Reg) (v : Word)

theorem State.cpr_setCpr (y : Cop) (k : Reg) :
    (s.setCpr z n v).cpr y k = if y = z ∧ k = n then v else s.cpr y k := by
  by_cases hy : y = z
  · subst hy
    by_cases hk : k = n
    · subst hk
      rw [if_pos ⟨rfl, rfl⟩, s.cpr_setCpr_same]
    · rw [if_neg (mt And.right hk), s.cpr_setCpr_ne _ _ hk]
  · rw [if_neg (mt And.left hy), s.cpr_setCpr_other _ _ _ hy]

theorem State.ctl_setCpr (y : Cop) : ((s.setCpr z n v).cop y).ctl = (s.cop y).ctl := by
  rw [State.setCpr, State.cop_setCop]
  split
  · next hy => rw [hy]
  · rfl

theorem sameMemory_setCpr_retire (k : Retired) : SameMemory s ((s.setCpr z n v).retire k) := ⟨rfl, rfl, rfl, rfl, rfl⟩

end SetCpr

/-! ## The moves, loads and stores of a usable coprocessor (R353 to R356) -/

section Usable

variable {s : State} {z : Cop} (hz : z ≠ .cp3) (hu : s.copUsable z = true)

include hz hu

theorem moveToCop_usable (rt rd : Reg) :
    moveToCop z rt rd s = .next ((s.setCpr z rd (s.reg rt)).retire .other) := requireCop_usable s hz hu

theorem moveFromCop_usable (rt rd : Reg) :
    moveFromCop z rt rd s = .next ((s.setReg rt (s.cpr z rd)).retire .other) := requireCop_usable s hz hu

/-- LWCz is the access of LW, and a write to a coprocessor register. -/
theorem loadToCop_of_permitted {base : Reg} {off : Imm16} (rt : Reg) (hp : Permitted s (s.effectiveAddress base off) 4)
    (hf : s.loadFails (s.effectiveAddress base off) 4 = false) :
    (∃ t, loadToCop z base rt off s = .next t ∧ DataRead (s.effectiveAddress base off) s t) ∧
      ∃ u, OnlyDataSide s u ∧ u.stores = s.stores ∧ loadToCop z base rt off s =
        .next ((u.setCpr z rt (assemble s.bigEndian (s.bytesAt (s.effectiveAddress base off) 4))).retire .other) := by
  obtain ⟨u, hside, hstores, hdata, hread⟩ := memRead_of_permitted (.inr (.inr rfl)) hp hf
  have hload := (requireCop_usable s hz hu).trans
    (Access.complete_ok hread s fun v t => (t.setCpr z rt v).retire .other)
  exact ⟨⟨_, hload, hdata.of_sameMemory (sameMemory_setCpr_retire u z rt _ _)⟩, u, hside, hstores, hload⟩

/-- SWCz is the access of SW, with the value of a coprocessor register. -/
theorem storeFromCop_of_permitted {base : Reg} {off : Imm16} (rt : Reg)
    (hp : Permitted s (s.effectiveAddress base off) 4) (hf : s.storeFails (s.effectiveAddress base off) = false) :
    (∃ t, storeFromCop z base rt off s = .next t ∧
        DataWritten (s.effectiveAddress base off) (layOut s.bigEndian 4 (s.cpr z rt)) s t) ∧
      ∃ u, OnlyDataSide s u ∧ storeFromCop z base rt off s = .next (u.retire .other) ∧
        u.bytesAt (s.effectiveAddress base off) 4 = layOut s.bigEndian 4 (s.cpr z rt) := by
  obtain ⟨u, hside, hdata, hbytes, hwrite⟩ := memWrite_of_permitted (.inr (.inr rfl)) hp hf (s.cpr z rt)
  have hstore := (requireCop_usable s hz hu).trans (Access.complete_ok hwrite s fun _ t => t.retire .other)
  exact ⟨⟨_, hstore, hdata.of_sameMemory (sameMemory_retire u _)⟩, u, hside, hstore, hbytes⟩

/-! ## The control instructions of a usable coprocessor (R357 to R359) -/

theorem moveControlToCop_usable (rt rd : Reg) :
    moveControlToCop z rt rd s =
      .next (((s.setCop z (copAfterControl z rd (s.reg rt) (s.cop z) s.freeCount)).drawn 1).retire (condWriter z)) :=
  requireCop_usable s hz hu

theorem moveControlFromCop_usable (rt rd : Reg) :
    moveControlFromCop z rt rd s =
      .next (((s.drawn 1).setReg rt (Config.copReadControl z rd (s.cop z).ctl s.freeCount)).retire .other) :=
  requireCop_usable s hz hu

theorem copOperation_usable (cofun : BitVec 25) :
    copOperation z cofun s =
      .next (((s.setCop z (copAfterOperation z cofun (s.cop z) s.freeCount)).drawn 1).retire (condWriter z)) :=
  requireCop_usable s hz hu

/-! ## The branches of a usable coprocessor (R360 to R366) -/

/-- Outside a delay slot the four branches test the condition that is seen, as the core's branches test theirs. -/
theorem copBranch_results (hs : s.inDelaySlot = false) {c : Bool} (hc : s.condSeen z = c) {t : State}
    (ht : s.drawn (if s.condOpen z then 1 else 0) = t) (off : Imm16) :
    BranchResult (c = false) off t (copBranch z false off s) ∧ BranchResult (c = true) off t (copBranch z true off s) ∧
      LikelyResult (c = false) off t (copBranchLikely z false off s) ∧
      LikelyResult (c = true) off t (copBranchLikely z true off s) := by
  subst hc ht
  have hslot : (s.drawn (if s.condOpen z then 1 else 0)).inDelaySlot = false := hs
  simp only [copBranch, copBranchLikely, requireCop_usable s hz hu]
  exact ⟨branchResult_of_iff hslot beq_iff_eq off, branchResult_of_iff hslot beq_iff_eq off,
    likelyResult_of_iff hslot beq_iff_eq off, likelyResult_of_iff hslot beq_iff_eq off⟩

theorem copBranch_in_slot (hs : s.inDelaySlot = true) (on : Bool) (off : Imm16) :
    copBranch z on off s = .refused .transferInDelaySlot := (requireCop_usable s hz hu).trans (if_pos hs)

theorem copBranchLikely_in_slot (hs : s.inDelaySlot = true) (on : Bool) (off : Imm16) :
    copBranchLikely z on off s = .refused .transferInDelaySlot := (requireCop_usable s hz hu).trans (if_pos hs)

end Usable

/-- Settles O40: coprocessors 1 and 2 share one meaning for each of the four instructions. -/
theorem coprocessorMoves : Obligations.CoprocessorMoves := by
  unfold Obligations.CoprocessorMoves
  rintro s base rt rd off va rfl
  have h1 : Cop.cp1 ≠ .cp3 := nofun
  have h2 : Cop.cp2 ≠ .cp3 := nofun
  exact ⟨fun hu => ⟨moveToCop_usable h1 hu rt rd, moveFromCop_usable h1 hu rt rd, loadToCop_of_permitted h1 hu rt,
      storeFromCop_of_permitted h1 hu rt⟩,
    fun hu => ⟨moveToCop_usable h2 hu rt rd, moveFromCop_usable h2 hu rt rd, loadToCop_of_permitted h2 hu rt,
      storeFromCop_of_permitted h2 hu rt⟩,
    fun z y n k v => ⟨s.cpr_setCpr z n v y k, s.ctl_setCpr z n v y, rfl⟩⟩

/-- Settles O41: coprocessors 1 and 2 share one meaning for each of the three instructions; only the FPU's condition is then
open to the next branch. -/
theorem coprocessorControl : Obligations.CoprocessorControl := by
  unfold Obligations.CoprocessorControl
  intro s rt rd cofun
  have h1 : Cop.cp1 ≠ .cp3 := nofun
  have h2 : Cop.cp2 ≠ .cp3 := nofun
  exact ⟨fun hu => ⟨moveControlToCop_usable h1 hu rt rd, moveControlFromCop_usable h1 hu rt rd,
      _, rfl, copOperation_usable h1 hu cofun⟩,
    fun hu => ⟨moveControlToCop_usable h2 hu rt rd, moveControlFromCop_usable h2 hu rt rd,
      _, rfl, copOperation_usable h2 hu cofun⟩⟩

/-! ## The condition that a branch sees (R366) -/

theorem condOpen_cp1_iff {s : State} : s.condOpen .cp1 = true ↔ s.last1 = .fpuCond := beq_iff_eq

theorem condSeen_of_not_open {s : State} {z : Cop} (h : s.condOpen z = false) : s.condSeen z = (s.cop z).ctl.cond := by
  rw [State.condSeen, h]
  rfl

theorem condSeen_cases (s : State) (z : Cop) :
    s.condSeen z = (s.cop z).ctl.cond ∨ s.condSeen z = (s.cop z).ctl.oldCond := (ite_eq_or_eq _ _ _).symm

/-- A branch draws no free value where the condition is not open. -/
theorem drawn_of_not_open {s : State} {z : Cop} (h : s.condOpen z = false) :
    s.drawn (if s.condOpen z then 1 else 0) = s := by
  rw [h]
  rfl

theorem drawn_of_open {s : State} {z : Cop} (h : s.condOpen z = true) :
    s.drawn (if s.condOpen z then 1 else 0) = s.drawn 1 := by
  rw [h]
  rfl

/-- Settles O42: the condition is open for coprocessor 1 alone, and there only after CTC1 or a COP1 operation. -/
theorem coprocessorBranches : Obligations.CoprocessorBranches := by
  unfold Obligations.CoprocessorBranches
  intro s off
  have h1 : Cop.cp1 ≠ .cp3 := nofun
  have h2 : Cop.cp2 ≠ .cp3 := nofun
  refine ⟨fun hu hs hlast => ?cp1, fun hu hs hlast => ?cp1Open, fun hu hs => ?cp2, fun i hi hu hs => ?cp1InSlot,
    fun i hi hu hs => ?cp2InSlot⟩
  case cp1 =>
    have hclosed := Bool.eq_false_iff.2 (mt condOpen_cp1_iff.1 hlast)
    exact copBranch_results h1 hu hs (condSeen_of_not_open hclosed) (drawn_of_not_open hclosed) off
  case cp1Open =>
    exact ⟨s.condSeen .cp1, condSeen_cases s .cp1,
      copBranch_results h1 hu hs rfl (drawn_of_open (condOpen_cp1_iff.2 hlast)) off⟩
  case cp2 =>
    have hclosed : s.condOpen .cp2 = false := rfl
    exact copBranch_results h2 hu hs (condSeen_of_not_open hclosed) (drawn_of_not_open hclosed) off
  case cp1InSlot =>
    simp only [List.mem_cons, List.not_mem_nil, or_false] at hi
    rcases hi with rfl | rfl | rfl | rfl
    · exact copBranch_in_slot h1 hu hs false off
    · exact copBranch_in_slot h1 hu hs true off
    · exact copBranchLikely_in_slot h1 hu hs false off
    · exact copBranchLikely_in_slot h1 hu hs true off
  case cp2InSlot =>
    simp only [List.mem_cons, List.not_mem_nil, or_false] at hi
    rcases hi with rfl | rfl | rfl | rfl
    · exact copBranch_in_slot h2 hu hs false off
    · exact copBranch_in_slot h2 hu hs true off
    · exact copBranchLikely_in_slot h2 hu hs false off
    · exact copBranchLikely_in_slot h2 hu hs true off

end Sys2Proof.Machine
end

section
/-! PROOFS. CP0 (47_cp0_cache.md sections 2 and 3): that without CP0 rights no CP0 register changes, and what MFC0, MTC0 and
ERET do where CP0 is usable. -/

namespace Sys2Proof.Machine

/-! ## Without CP0 rights (R379, R461) -/

/-- The instructions that write a CP0 register belong to coprocessor 0, so that the usable check stands before them. -/
theorem WritesCp0.copClass {i : Instr} (h : WritesCp0 i) : i.copClass = some 0#2 := by
  rcases h with ⟨rt, rd, rfl⟩ | rfl <;> rfl

theorem exec_of_writesCp0_unusable {i : Instr} {s : State} (hi : WritesCp0 i) (hc : s.cp0.status.cu.getLsbD 0 = false)
    (hm : s.mode = some .user ∨ s.mode = some .supervisor) : exec i s = .next (takeException (.cpU 0) s) :=
  (coprocessorUnusable.1 i s 0 hi.copClass hc fun _ => hm).1

/-- An exception is handled in kernel mode, since EXL = 1 (R51). -/
theorem takeException_mode (e : GeneralException) (s : State) : (takeException e s).mode = some .kernel := by
  simp [State.mode, Status.mode]

/-- Settles O59: an instruction either enters an exception in the state that it began in or keeps to its footprint, and those
whose footprint has CP0 in it do not get beyond the usable check. -/
theorem userModeCannotChangeCp0 : Obligations.UserModeCannotChangeCp0 := by
  unfold Obligations.UserModeCannotChangeCp0
  intro i s t hc hm h
  rcases exec_within i s t h with ⟨e, rfl⟩ | ⟨hf, ht⟩
  · exact .inl ⟨rfl, takeException_mode e s, rfl, fun _ => rfl, .refl s⟩
  · have hkeeps : ¬WritesCp0 i := by
      intro hw
      rw [exec_of_writesCp0_unusable hw hc hm] at h
      cases h
      cases ht
    have hcp0 : t.cp0 = s.cp0 := hf.cp0 hkeeps
    exact .inr ⟨ht, hcp0, congrArg (fun c => c.status.mode) hcp0⟩

/-! ## Status and Cause as words (R42, R44, R450) -/

/-- The layout of the Status word, bit by bit. -/
theorem Status.getLsbD_toWord (st : Status) {i : Nat} (hi : i < 32) :
    st.toWord.getLsbD i =
      if i = 0 then st.ie else if i = 1 then st.exl else if i = 2 then st.erl
      else if i < 5 then st.ksu.getLsbD (i - 3) else if i < 8 then false
      else if i < 16 then st.im.getLsbD (i - 8) else if i < 20 then false else if i = 20 then st.sr
      else if i = 21 then false else if i = 22 then st.bev else if i < 25 then false else if i = 25 then st.re
      else if i < 28 then false else st.cu.getLsbD (i - 28) := by
  rw [Status.toWord, BitVec.getLsbD_append]
  simp only [BitVec.getLsbD_append, BitVec.getLsbD_ofBool]
  interval_cases i <;> simp

/-- The layout of IP[7:0], bit by bit. -/
theorem State.getLsbD_pending (s : State) {i : Nat} (hi : i < 8) :
    s.pending.getLsbD i =
      if i < 2 then s.cp0.cause.soft.getLsbD i else if i < 7 then s.env.intPins.getLsbD (i - 2) else s.cp0.cause.timer := by
  rw [State.pending, BitVec.getLsbD_append]
  simp only [BitVec.getLsbD_append, BitVec.getLsbD_ofBool, BitVec.getLsbD_extractLsb']
  interval_cases i <;> simp

/-- The layout of the Cause word, bit by bit (GK2). -/
theorem State.getLsbD_causeWord (s : State) {i : Nat} (hi : i < 32) :
    s.causeWord.getLsbD i =
      if i < 2 then false else if i < 7 then s.cp0.cause.excCode.getLsbD (i - 2) else if i = 7 then false
      else if i < 16 then s.pending.getLsbD (i - 8) else if i < 28 then false
      else if i < 30 then s.cp0.cause.ce.getLsbD (i - 28) else if i = 30 then false else s.cp0.cause.bd := by
  rw [State.causeWord, BitVec.getLsbD_append]
  simp only [BitVec.getLsbD_append, BitVec.getLsbD_ofBool]
  interval_cases i <;> simp

/-- Which bits of Status read as 0 (D10). -/
theorem Status.toWord_zeros (st : Status) : st.toWord &&& 0x0DAF00E0#32 = 0 := by
  apply BitVec.eq_of_getLsbD_eq
  intro i hi
  rw [BitVec.getLsbD_and, st.getLsbD_toWord hi]
  interval_cases i <;> simp

/-- Which bits of Cause read as 0 (D10). -/
theorem State.causeWord_zeros (s : State) : s.causeWord &&& 0x4FFF0083#32 = 0 := by
  apply BitVec.eq_of_getLsbD_eq
  intro i hi
  rw [BitVec.getLsbD_and, s.getLsbD_causeWord hi]
  interval_cases i <;> simp

/-- What is written to Status reads back with the bits that have a field (R381). -/
theorem Status.toWord_ofWord (v : Word) : (Status.ofWord v).toWord = v &&& 0xF250FF1F#32 := by
  apply BitVec.eq_of_getLsbD_eq
  intro i hi
  rw [BitVec.getLsbD_and, (Status.ofWord v).getLsbD_toWord hi]
  interval_cases i <;> simp [Status.ofWord]

theorem extractLsb'_eq_of_getLsbD {n k p : Nat} {v : BitVec n} {x : BitVec k}
    (h : ∀ i, i < k → v.getLsbD (p + i) = x.getLsbD i) : v.extractLsb' p k = x := by
  ext i hi
  rw [BitVec.getElem_extractLsb', h i hi, BitVec.getLsbD_eq_getElem]

/-- The fields of more than one bit of the Status word. -/
theorem Status.extract_toWord (st : Status) :
    st.toWord.extractLsb' 28 4 = st.cu ∧ st.toWord.extractLsb' 8 8 = st.im ∧ st.toWord.extractLsb' 3 2 = st.ksu := by
  refine ⟨extractLsb'_eq_of_getLsbD fun i hi => ?cu, extractLsb'_eq_of_getLsbD fun i hi => ?im,
    extractLsb'_eq_of_getLsbD fun i hi => ?ksu⟩
  all_goals
    rw [st.getLsbD_toWord (by omega)]
    interval_cases i <;> rfl

/-- The fields of more than one bit of the Cause word. -/
theorem State.extract_causeWord (s : State) :
    s.causeWord.extractLsb' 28 2 = s.cp0.cause.ce ∧ s.causeWord.extractLsb' 10 5 = s.env.intPins.extractLsb' 0 5 ∧
      s.causeWord.extractLsb' 8 2 = s.cp0.cause.soft ∧ s.causeWord.extractLsb' 2 5 = s.cp0.cause.excCode := by
  refine ⟨extractLsb'_eq_of_getLsbD fun i hi => ?ce, extractLsb'_eq_of_getLsbD fun i hi => ?pins,
    extractLsb'_eq_of_getLsbD fun i hi => ?soft, extractLsb'_eq_of_getLsbD fun i hi => ?excCode⟩
  case ce | excCode =>
    rw [s.getLsbD_causeWord (by omega)]
    interval_cases i <;> rfl
  case pins =>
    have hpending : s.causeWord.getLsbD (10 + i) = s.pending.getLsbD (i + 2) := by
      rw [s.getLsbD_causeWord (by omega)]
      interval_cases i <;> rfl
    rw [hpending, s.getLsbD_pending (by omega), if_neg (by omega), if_pos (by omega), BitVec.getLsbD_extractLsb']
    simp [hi]
  case soft =>
    have hpending : s.causeWord.getLsbD (8 + i) = s.pending.getLsbD i := by
      rw [s.getLsbD_causeWord (by omega)]
      interval_cases i <;> rfl
    rw [hpending, s.getLsbD_pending (by omega), if_pos hi]

theorem State.timer_causeWord (s : State) : s.causeWord.getLsbD 15 = s.cp0.cause.timer :=
  (s.getLsbD_causeWord (by decide)).trans (s.getLsbD_pending (by decide))

/-! ## MFC0 and MTC0 where CP0 is usable (R380, R381) -/

theorem exec_mfc0_usable {s : State} (hu : s.cp0Usable) (rt : Reg) (rd : Cp0Reg) :
    exec (.mfc0 rt rd) s = .next (((s.drawn (cp0Draws rd)).setReg rt (s.cp0Read rd)).retire .other) :=
  requireCp0_usable s hu

theorem exec_mtc0_usable {s : State} (hu : s.cp0Usable) (rt : Reg) (rd : Cp0Reg) :
    exec (.mtc0 rt rd) s = .next ({ s with cp0 := s.cp0.write rd (s.reg rt) }.retire (mtc0Kind rd)) :=
  requireCp0_usable s hu

/-- Settles O44: MFC0 delivers what `State.cp0Read` reads, and draws a free value where no register is. -/
theorem mfc0Results : Obligations.Mfc0Results := by
  unfold Obligations.Mfc0Results
  intro s rt n hu
  have hread := exec_mfc0_usable hu rt
  obtain ⟨hcu, him, hksu⟩ := s.cp0.status.extract_toWord
  obtain ⟨hce, hpins, hsoft, hexcCode⟩ := s.extract_causeWord
  have hbit {i : Nat} (hi : i < 32) := s.cp0.status.getLsbD_toWord hi
  refine ⟨hread .badVAddr, hread .count, hread .compare, hread .epc, hread .errorEPC, hread .ebase, hread .prId,
    hread .config, fun rd hrd => ?free,
    ⟨s.cp0.status.toWord, hread .status, s.cp0.status.toWord_zeros, hcu, hbit (by decide), hbit (by decide),
      hbit (by decide), him, hksu, hbit (by decide), hbit (by decide), hbit (by decide)⟩,
    ⟨s.causeWord, hread .cause, s.causeWord_zeros, s.getLsbD_causeWord (by decide), hce, s.timer_causeWord, hpins, hsoft,
      hexcCode⟩⟩
  case free =>
    rcases hrd with rfl | rfl | rfl
    · exact hread .tagLo
    · exact hread .tagHi
    · exact hread (.reserved n)

/-- Settles O45: MTC0 does what `Cp0.write` does, which writes the fields that the register has. -/
theorem mtc0Results : Obligations.Mtc0Results := by
  unfold Obligations.Mtc0Results
  intro s rt n hu
  have hwrite := exec_mtc0_usable hu rt
  refine ⟨hwrite .count, hwrite .compare, hwrite .epc, hwrite .errorEPC, hwrite .ebase, hwrite .cause,
    ⟨_, hwrite .status, Status.toWord_ofWord _⟩, fun rd hrd => ?ignored, fun rd hrd => ?tags⟩
  case ignored =>
    rcases hrd with rfl | rfl | rfl | rfl
    · exact hwrite .badVAddr
    · exact hwrite .prId
    · exact hwrite .config
    · exact hwrite (.reserved n)
  case tags =>
    rcases hrd with rfl | rfl
    · exact ⟨s.reg rt, s.cp0.tagHi, hwrite .tagLo⟩
    · exact ⟨s.cp0.tagLo, s.reg rt, hwrite .tagHi⟩

/-! ## ERET where CP0 is usable (R382, R383) -/

theorem exec_eret_usable {s : State} (hu : s.cp0Usable) :
    exec .eret s = if s.inDelaySlot then .refused .eretInDelaySlot
      else if s.last1.isMtc0 || s.last2.isMtc0 then .refused .eretAfterMtc0 else .next (exceptionReturn s) :=
  requireCp0_usable s hu

/-- ERL = 1 is cleared and EXL kept. -/
theorem exceptionReturn_cp0_of_erl {s : State} (h : s.cp0.status.erl = true) :
    (exceptionReturn s).cp0 = { s.cp0 with status := { s.cp0.status with erl := false } } := by
  rw [exceptionReturn_cp0, if_pos h]

/-- With ERL = 0 it is EXL that is cleared. -/
theorem exceptionReturn_cp0_of_not_erl {s : State} (h : s.cp0.status.erl = false) :
    (exceptionReturn s).cp0 = { s.cp0 with status := { s.cp0.status with exl := false } } := by
  rw [exceptionReturn_cp0, if_neg (Bool.eq_false_iff.1 h), ← h]

theorem sameMemory_exceptionReturn (s : State) : SameMemory s (exceptionReturn s) := ⟨rfl, rfl, rfl, rfl, rfl⟩

/-- Settles O46: ERET is `exceptionReturn` but in the two cases in which it is refused. -/
theorem eretResult : Obligations.EretResult := by
  unfold Obligations.EretResult
  intro s hu
  have heret := exec_eret_usable hu
  refine ⟨fun hs h1 h2 => ?returns, fun hs => ?inSlot, fun hs h => ?afterMtc0⟩
  case returns =>
    rw [hs, h1, h2] at heret
    have hmem := sameMemory_exceptionReturn s
    exact ⟨exceptionReturn s, heret, rfl, rfl, rfl, rfl, exceptionReturn_cp0_of_erl, exceptionReturn_cp0_of_not_erl,
      fun _ => rfl, rfl, rfl, rfl, rfl, rfl, rfl, hmem, hmem.sameBytes rfl⟩
  case inSlot => rw [heret, if_pos hs]
  case afterMtc0 =>
    rw [heret, if_neg (Bool.eq_false_iff.1 hs), if_pos (Bool.or_eq_true_iff.2 h)]

end Sys2Proof.Machine
end

section
/-! PROOFS. The CACHE instruction (47_cp0_cache.md section 4): the checks that stand before its operation, what the operations
leave in a cache set, and what they do to the caches, to the writeback buffer and to memory. -/

namespace Sys2Proof.Machine

/-! ## The checks before the operation (R384, R388) -/

section Checks

variable {s : State} {base : Reg} {off : Imm16} {va : Word} {m : Mode} (hva : va = s.effectiveAddress base off)
  (hu : s.cp0Usable) (hm : s.mode = some m)
include hva hu hm

/-- Where CP0 is usable and the segment is allowed, CACHE is its operation. -/
theorem exec_cache_allowed (hp : allowedAddress m va = true) (op : CacheOp) :
    exec (.cache base op off) s = (cacheOperation op va s).complete s fun _ t => t.retire .other := by
  subst hva
  refine (requireCp0_usable s hu).trans ?_
  rw [bind_checkAddress_ok hm rfl hp]

theorem exec_cache_ok (hp : allowedAddress m va = true) {op : CacheOp} {u : State} (h : cacheOperation op va s = .ok () u) :
    exec (.cache base op off) s = .next (u.retire .other) :=
  (exec_cache_allowed hva hu hm hp op).trans (Access.complete_ok h s _)

/-- The segment is checked before the code is looked at. -/
theorem exec_cache_adEL (hp : allowedAddress m va = false) (op : CacheOp) :
    exec (.cache base op off) s = .next (takeException (.adEL va) s) := by
  subst hva
  exact (requireCp0_usable s hu).trans (Access.complete_raise (bind_checkAddress_raise hm (.inr hp) _) s _)

end Checks

theorem onCached_of_cached {va : Word} (hc : cachedAddress va = true) (a : Access Unit) : onCached va a = a := if_pos hc

theorem onCached_of_not_cached {va : Word} (hc : cachedAddress va = false) (a : Access Unit) :
    onCached va a = .refuse .cacheOpUncached := if_neg (Bool.eq_false_iff.1 hc)

/-! ## What the operations leave in a set (R385, R389 to R398) -/

section Sets

variable {δ : Type} (c : CacheSet δ) (w : WaySel)

theorem CacheSet.way_withLock (l : Bool) (v : WaySel) : ({ c with lock := l } : CacheSet δ).way v = c.way v := by
  cases v <;> rfl

theorem ChangedWay.trans {c d e : CacheSet δ} {w : WaySel} {x y : Way δ} {l k : Bool} (h : ChangedWay c d w x l)
    (g : ChangedWay d e w y k) : ChangedWay c e w y k := by
  obtain ⟨-, hother, hlru, -⟩ := h
  obtain ⟨gway, gother, glru, glock⟩ := g
  exact ⟨gway, gother.trans hother, glru.trans hlru, glock⟩

theorem changedWay_setWay (x : Way δ) : ChangedWay c (c.setWay w x) w x c.lock :=
  ⟨by simp, by cases w <;> rfl, rfl, rfl⟩

/-- A way made invalid while Lock is set to `l`. -/
theorem changedWay_invalidate (l : Bool) :
    ChangedWay c (({ c with lock := l } : CacheSet δ).invalidate w) w { c.way w with valid := false } l := by
  rw [CacheSet.invalidate, c.way_withLock]
  exact ⟨by simp, by cases w <;> rfl, rfl, rfl⟩

/-- A way is locked when Lock is 1 and the LRU bit points to the other. -/
theorem CacheSet.locked_iff : c.locked w = true ↔ c.lock = true ∧ w ≠ if c.lru then .b else .a := by
  rw [CacheSet.locked, Bool.and_eq_true, bne_iff_ne, CacheSet.old, ne_comm]

theorem CacheSet.unlockIfLocked_eq : c.unlockIfLocked w = { c with lock := c.lock && !c.locked w } := by
  unfold CacheSet.unlockIfLocked
  cases c.locked w <;> simp

theorem CacheSet.unlockIfSingle_eq :
    c.unlockIfSingle = { c with lock := c.lock && (c.a.valid && c.b.valid) } := by
  unfold CacheSet.unlockIfSingle
  cases c.a.valid && c.b.valid <;> simp

theorem changedWay_unlockIfLocked :
    ChangedWay c ((c.unlockIfLocked w).invalidate w) w { c.way w with valid := false } (c.lock && !c.locked w) := by
  rw [c.unlockIfLocked_eq]
  exact changedWay_invalidate c w _

theorem changedWay_unlockIfSingle :
    ChangedWay c (c.unlockIfSingle.invalidate w) w { c.way w with valid := false }
      (c.lock && (c.a.valid && c.b.valid)) := by
  rw [c.unlockIfSingle_eq]
  exact changedWay_invalidate c w _

/-! ### The way that an Index operation selects -/

variable {c w}

theorem CacheSet.indexed_of_both (ha : c.a.valid = true) (hb : c.b.valid = true) :
    c.indexed = some (if c.lru then .b else .a) := by
  rw [CacheSet.indexed, ha, hb]
  rfl

theorem CacheSet.indexed_of_single (hw : (c.way w).valid = true) (ho : (c.way w.other).valid = false) :
    c.indexed = some w := by
  cases w <;> simp_all [CacheSet.indexed, CacheSet.way, WaySel.other]

theorem CacheSet.indexed_of_neither (ha : c.a.valid = false) (hb : c.b.valid = false) : c.indexed = none := by
  rw [CacheSet.indexed, ha, hb]

/-- With one way invalid not both are valid. -/
theorem CacheSet.both_eq_false (ho : (c.way w.other).valid = false) : (c.a.valid && c.b.valid) = false := by
  cases w
  · exact (congrArg _ ho).trans (Bool.and_false _)
  · exact congrArg (· && c.b.valid) ho

theorem CacheSet.indexInvalidate_of_indexed (h : c.indexed = some w) :
    c.indexInvalidate = c.unlockIfSingle.invalidate w := by
  rw [CacheSet.indexInvalidate, h]

theorem CacheSet.indexInvalidate_of_not_indexed (h : c.indexed = none) : c.indexInvalidate = c := by
  rw [CacheSet.indexInvalidate, h]

/-! ### Hit Invalidate, in a cached segment or not (R388, R392, R396) -/

theorem CacheSet.hitInvalidate_of_miss {b : Bool} {tag : BitVec 19} (h : b = false ∨ c.find tag = none) :
    (if b then c.hitInvalidate tag else c) = c := by
  rcases h with rfl | h
  · rfl
  · rw [CacheSet.hitInvalidate, h]
    exact ite_self c

theorem changedWay_hitInvalidate {b : Bool} {tag : BitVec 19} (hb : b = true) (h : c.find tag = some w) :
    ChangedWay c (if b then c.hitInvalidate tag else c) w { c.way w with valid := false } (c.lock && !c.locked w) := by
  rw [if_pos hb, CacheSet.hitInvalidate, h]
  exact changedWay_unlockIfLocked c w

/-! ### Dirty cleared (R385) -/

theorem changedWay_clean (c : CacheSet Bool) (w : WaySel) :
    ChangedWay c (c.clean w) w { c.way w with dirty := false } c.lock := changedWay_setWay c w _

theorem CacheSet.clean_of_not_dirty {c : CacheSet Bool} {w : WaySel} (h : (c.way w).dirty = false) : c.clean w = c := by
  rw [CacheSet.clean, ← h]
  cases w <;> rfl

/-- Hit Writeback Invalidate on the set: the lock is cancelled as for the way before its Dirty bit was cleared. -/
theorem changedWay_clean_unlockIfLocked (c : CacheSet Bool) (w : WaySel) :
    ChangedWay c (((c.clean w).unlockIfLocked w).invalidate w) w { c.way w with valid := false, dirty := false }
      (c.lock && !c.locked w) := by
  have h := (changedWay_clean c w).trans (changedWay_unlockIfLocked (c.clean w) w)
  rwa [(changedWay_clean c w).1] at h

/-- Index Writeback Invalidate on the set: Lock stays where both ways were valid. -/
theorem changedWay_clean_unlockIfSingle (c : CacheSet Bool) (w : WaySel) :
    ChangedWay c ((c.clean w).unlockIfSingle.invalidate w) w { c.way w with valid := false, dirty := false }
      (c.lock && (c.a.valid && c.b.valid)) := by
  have h := (changedWay_clean c w).trans (changedWay_unlockIfSingle (c.clean w) w)
  rw [(changedWay_clean c w).1] at h
  cases w <;> exact h

end Sets

/-! ## One set replaced -/

section SetReplaced

variable (s : State) (va : Word)

theorem State.setIset_iset : s.setIset va (s.iset va) = s := by
  rw [State.setIset, State.iset, Vector.set_getElem_self]

theorem State.setDset_dset : s.setDset va (s.dset va) = s := by
  rw [State.setDset, State.dset, Vector.set_getElem_self]

theorem sameOtherIsets_setIset (c : CacheSet Unit) : SameOtherIsets va s (s.setIset va c) :=
  fun a ha => by rw [State.iset_setIset, if_neg ha]

theorem SameOtherIsets.trans {va : Word} {s t u : State} (h : SameOtherIsets va s t) (g : SameOtherIsets va t u) :
    SameOtherIsets va s u := fun a ha => (g a ha).trans (h a ha)

/-- Hit Invalidate replaces the set of its address, by itself where it finds no line. -/
theorem cacheOperation_hitInvalidateI :
    cacheOperation .hitInvalidateI va s = .ok () (s.setIset va
      (if cachedAddress va then (s.iset va).hitInvalidate (lineTag va) else s.iset va)) := by
  change hitOnCached va s _ = _
  rw [hitOnCached, apply_ite (s.setIset va), s.setIset_iset]

theorem cacheOperation_hitInvalidateD :
    cacheOperation .hitInvalidateD va s = .ok () (s.setDset va
      (if cachedAddress va then (s.dset va).hitInvalidate (lineTag va) else s.dset va)) := by
  change hitOnCached va s _ = _
  rw [hitOnCached, apply_ite (s.setDset va), s.setDset_dset]

end SetReplaced

/-- Settles O47: each operation replaces the set that it names, and what it leaves there is said of sets above. -/
theorem cacheInvalidations : Obligations.CacheInvalidations := by
  unfold Obligations.CacheInvalidations
  rintro s base off va hva hu ⟨-, m, hm, hp⟩
  have hrun {op : CacheOp} {u : State} (h : cacheOperation op va s = .ok () u) := exec_cache_ok hva hu hm hp h
  refine ⟨hrun rfl, hrun rfl, ⟨_, hrun (cacheOperation_hitInvalidateI s va), rfl, fun h => ?missI, fun w hc hf => ?hitI⟩,
    ⟨_, hrun (cacheOperation_hitInvalidateD s va), rfl, fun h => ?missD, fun w hc hf => ?hitD⟩,
    ⟨_, hrun rfl, rfl, sameOtherIsets_setIset s va _, fun w ha hb hw => ?both, fun w hw ho => ?single,
      fun ha hb => ?neither⟩,
    fun c w => c.locked_iff w, fun c w => c.locked_iff w,
    fun x => ⟨s.iset_setIset_same va x, sameOtherIsets_setIset s va x⟩,
    fun x => ⟨s.dset_setDset_same va x, sameOtherDsets_setDset s va x⟩⟩
  case missI => rw [retire_icache, CacheSet.hitInvalidate_of_miss h, s.setIset_iset]
  case hitI =>
    rw [retire_iset, s.iset_setIset_same]
    exact ⟨sameOtherIsets_setIset s va _, changedWay_hitInvalidate hc hf⟩
  case missD => rw [retire_dcache, CacheSet.hitInvalidate_of_miss h, s.setDset_dset]
  case hitD =>
    rw [retire_dset, s.dset_setDset_same]
    exact ⟨sameOtherDsets_setDset s va _, changedWay_hitInvalidate hc hf⟩
  case both =>
    have h := changedWay_unlockIfSingle (s.iset va) w
    rw [ha, hb, Bool.and_self, Bool.and_true] at h
    rw [retire_iset, s.iset_setIset_same,
      CacheSet.indexInvalidate_of_indexed ((CacheSet.indexed_of_both ha hb).trans (congrArg some hw.symm))]
    exact h
  case single =>
    have h := changedWay_unlockIfSingle (s.iset va) w
    rw [CacheSet.both_eq_false ho, Bool.and_false] at h
    rw [retire_iset, s.iset_setIset_same, CacheSet.indexInvalidate_of_indexed (CacheSet.indexed_of_single hw ho)]
    exact h
  case neither =>
    rw [retire_icache, CacheSet.indexInvalidate_of_not_indexed (CacheSet.indexed_of_neither ha hb), s.setIset_iset]

end Sys2Proof.Machine
end

section
/-! PROOFS. The CACHE operations that write a line back (47_cp0_cache.md R394, R395, R397): what goes to the writeback buffer and
to memory, and what is left in the set. -/

namespace Sys2Proof.Machine

/-! ## The state beside the data cache -/

/-- `u` is `s` but for the data cache, the writeback buffer and memory. -/
def OnlyDataCache (s u : State) : Prop := u = { s with dcache := u.dcache, writeback := u.writeback, mem := u.mem }

namespace OnlyDataCache

variable {s t u : State}

theorem refl (s : State) : OnlyDataCache s s := rfl

theorem ite {c : Prop} [Decidable c] (h : OnlyDataCache s t) (g : OnlyDataCache s u) :
    OnlyDataCache s (if c then t else u) := by
  split
  · exact h
  · exact g

theorem setDset (h : OnlyDataCache s u) (va : Word) (c : CacheSet Bool) : OnlyDataCache s (u.setDset va c) :=
  congrArg (State.setDset · va c) h

theorem drawn (h : OnlyDataCache s u) (n : Nat) : OnlyDataCache (s.drawn n) (u.drawn n) := congrArg (State.drawn · n) h

theorem retire (h : OnlyDataCache s u) (k : Retired) : OnlyDataCache (s.retire k) (u.retire k) := congrArg (State.retire · k) h

end OnlyDataCache

/-! ## A line written back (R114, R385) -/

section WrittenBack

variable {s t : State} {va : Word} {w : WaySel}

theorem memAfterWriteback_of_empty (h : s.writeback = none) : s.memAfterWriteback = s.mem := by
  rw [State.memAfterWriteback, h]

theorem memAfterWriteback_of_held {x : Writeback} (h : s.writeback = some x) :
    s.memAfterWriteback = s.env.writeLine s.mem (physical x.va) x.data := by
  rw [State.memAfterWriteback, h]

/-- What `WrittenBackIfDirty` says, in the form in which the model computes it. -/
theorem writtenBackIfDirty_of_eq
    (hw : t.writeback = if ((s.dset va).way w).dirty then
      some { va := lineAddress ((s.dset va).way w).tag (setIndex va), data := ((s.dset va).way w).data } else s.writeback)
    (hm : t.mem = if ((s.dset va).way w).dirty then s.memAfterWriteback else s.mem) : WrittenBackIfDirty va w s t := by
  refine ⟨fun hd => ?dirty, fun hd => ?clean⟩
  case dirty =>
    rw [if_pos hd] at hw hm
    exact ⟨hw, fun h => hm.trans (memAfterWriteback_of_empty h), fun x h => hm.trans (memAfterWriteback_of_held h)⟩
  case clean =>
    rw [if_neg (Bool.eq_false_iff.1 hd)] at hw hm
    exact ⟨hw, hm⟩

theorem WrittenBackIfDirty.congr {u : State} (h : WrittenBackIfDirty va w s t) (hw : u.writeback = t.writeback)
    (hm : u.mem = t.mem) : WrittenBackIfDirty va w s u := by
  unfold WrittenBackIfDirty LineMovedOut at *
  rwa [hw, hm]

/-- A line that is not dirty is not written back. -/
theorem writebackWay_of_not_dirty (h : ((s.dset va).way w).dirty = false) : s.writebackWay va w = s := by
  rw [State.writebackWay, h, CacheSet.clean_of_not_dirty h]
  exact s.setDset_dset va

end WrittenBack

section WritebackWay

variable (s : State) (va : Word) (w : WaySel)

theorem writtenBackIfDirty_writebackWay : WrittenBackIfDirty va w s (s.writebackWay va w) :=
  writtenBackIfDirty_of_eq rfl rfl

theorem dset_writebackWay : (s.writebackWay va w).dset va = (s.dset va).clean w := State.dset_setDset_same _ va _

theorem sameOtherDsets_writebackWay : SameOtherDsets va s (s.writebackWay va w) := sameOtherDsets_setDset _ va _

theorem writtenBackIfDirty_writebackWay_setDset (c : CacheSet Bool) :
    WrittenBackIfDirty va w s ((s.writebackWay va w).setDset va c) := writtenBackIfDirty_of_eq rfl rfl

theorem sameOtherDsets_writebackWay_setDset (c : CacheSet Bool) :
    SameOtherDsets va s ((s.writebackWay va w).setDset va c) :=
  (sameOtherDsets_writebackWay s va w).trans (sameOtherDsets_setDset _ va c)

end WritebackWay

/-! ## The three operations, where they find a line and where they do not -/

section Operations

variable {s : State} {va : Word} {w : WaySel}

theorem hitWriteback_of_hit (h : (s.dset va).find (lineTag va) = some w) : s.hitWriteback va = s.writebackWay va w := by
  rw [State.hitWriteback, h]

/-- What Hit Writeback does to the way that hits. -/
theorem hitWriteback_spec (h : (s.dset va).find (lineTag va) = some w) :
    WrittenBackIfDirty va w s (s.hitWriteback va) ∧ SameOtherDsets va s (s.hitWriteback va) ∧
      ChangedWay (s.dset va) ((s.hitWriteback va).dset va) w { (s.dset va).way w with dirty := false }
        (s.dset va).lock := by
  rw [hitWriteback_of_hit h, dset_writebackWay]
  exact ⟨writtenBackIfDirty_writebackWay s va w, sameOtherDsets_writebackWay s va w, changedWay_clean (s.dset va) w⟩

theorem hitWriteback_of_miss (h : (s.dset va).find (lineTag va) = none) : s.hitWriteback va = s := by
  rw [State.hitWriteback, h]

theorem onlyDataCache_hitWriteback (s : State) (va : Word) : OnlyDataCache s (s.hitWriteback va) := by
  unfold State.hitWriteback
  split <;> rfl

theorem hitWritebackInvalidate_of_hit (h : (s.dset va).find (lineTag va) = some w) :
    s.hitWritebackInvalidate va =
      (s.writebackWay va w).setDset va ((((s.dset va).clean w).unlockIfLocked w).invalidate w) := by
  rw [State.hitWritebackInvalidate, h]
  exact congrArg (fun c => (s.writebackWay va w).setDset va ((c.unlockIfLocked w).invalidate w)) (dset_writebackWay s va w)

/-- What Hit Writeback Invalidate does to the way that hits. -/
theorem hitWritebackInvalidate_spec (h : (s.dset va).find (lineTag va) = some w) :
    WrittenBackIfDirty va w s (s.hitWritebackInvalidate va) ∧ SameOtherDsets va s (s.hitWritebackInvalidate va) ∧
      ChangedWay (s.dset va) ((s.hitWritebackInvalidate va).dset va) w
        { (s.dset va).way w with valid := false, dirty := false } ((s.dset va).lock && !(s.dset va).locked w) := by
  rw [hitWritebackInvalidate_of_hit h, State.dset_setDset_same]
  exact ⟨writtenBackIfDirty_writebackWay_setDset s va w _, sameOtherDsets_writebackWay_setDset s va w _,
    changedWay_clean_unlockIfLocked (s.dset va) w⟩

theorem hitWritebackInvalidate_of_miss (h : (s.dset va).find (lineTag va) = none) : s.hitWritebackInvalidate va = s := by
  rw [State.hitWritebackInvalidate, h]

theorem onlyDataCache_hitWritebackInvalidate (s : State) (va : Word) : OnlyDataCache s (s.hitWritebackInvalidate va) := by
  unfold State.hitWritebackInvalidate
  split <;> rfl

theorem indexWritebackInvalidate_of_indexed (h : (s.dset va).indexed = some w) :
    s.indexWritebackInvalidate va =
      (s.writebackWay va w).setDset va (((s.dset va).clean w).unlockIfSingle.invalidate w) := by
  rw [State.indexWritebackInvalidate, h]
  exact congrArg (fun c => (s.writebackWay va w).setDset va (c.unlockIfSingle.invalidate w)) (dset_writebackWay s va w)

theorem indexWritebackInvalidate_of_not_indexed (h : (s.dset va).indexed = none) : s.indexWritebackInvalidate va = s := by
  rw [State.indexWritebackInvalidate, h]

theorem onlyDataCache_indexWritebackInvalidate (s : State) (va : Word) : OnlyDataCache s (s.indexWritebackInvalidate va) := by
  unfold State.indexWritebackInvalidate
  split <;> rfl

/-- What Index Writeback Invalidate does to the way that it selects. -/
theorem indexWritebackInvalidate_spec (h : (s.dset va).indexed = some w) :
    WrittenBackIfDirty va w s (s.indexWritebackInvalidate va) ∧ SameOtherDsets va s (s.indexWritebackInvalidate va) ∧
      ChangedWay (s.dset va) ((s.indexWritebackInvalidate va).dset va) w
        { (s.dset va).way w with valid := false, dirty := false }
        ((s.dset va).lock && ((s.dset va).a.valid && (s.dset va).b.valid)) := by
  rw [indexWritebackInvalidate_of_indexed h, State.dset_setDset_same]
  exact ⟨writtenBackIfDirty_writebackWay_setDset s va w _, sameOtherDsets_writebackWay_setDset s va w _,
    changedWay_clean_unlockIfSingle (s.dset va) w⟩

/-- A hit operation does nothing in a non-cached segment or on a miss (R388). -/
theorem hitOnCached_eq_self {u : State} (h : cachedAddress va = false ∨ (s.dset va).find (lineTag va) = none)
    (hmiss : (s.dset va).find (lineTag va) = none → u = s) : (if cachedAddress va then u else s) = s := by
  rcases h with h | h
  · exact if_neg (Bool.eq_false_iff.1 h)
  · rw [hmiss h]
    exact ite_self s

end Operations

/-- Settles O48: where a way hits or is selected, it is written back if it is dirty and then changed in its set alone. -/
theorem cacheWritebacks : Obligations.CacheWritebacks := by
  unfold Obligations.CacheWritebacks
  rintro s base off va hva hu ⟨-, m, hm, hp⟩
  have hrun {op : CacheOp} {u : State} (h : cacheOperation op va s = .ok () u) := exec_cache_ok hva hu hm hp h
  refine ⟨⟨_, hrun (op := .hitWritebackD) rfl, ?frameHit, fun w hc hf hd => ?hitDirty, fun w hf hd => ?hitClean,
      fun h => ?hitNone⟩,
    ⟨_, hrun (op := .hitWritebackInvalidateD) rfl, ?frameHitInvalidate, fun w hc hf => ?hitInvalidate,
      fun h => ?hitInvalidateNone⟩,
    ⟨_, hrun (op := .indexWritebackInvalidateD) rfl, ?frameIndex, fun w ha hb hw => ?indexBoth,
      fun w hw ho => ?indexSingle, fun ha hb => ?indexNone⟩⟩
  case frameHit => exact (OnlyDataCache.ite (onlyDataCache_hitWriteback s va) (.refl s)).retire .other
  case hitDirty =>
    obtain ⟨hmoved, hothers, hway⟩ := hitWriteback_spec hf
    rw [if_pos hc]
    exact ⟨hmoved.1 hd, hothers, hway⟩
  case hitClean => rw [hitWriteback_of_hit hf, writebackWay_of_not_dirty hd, ite_self]
  case hitNone => rw [hitOnCached_eq_self h hitWriteback_of_miss]
  case frameHitInvalidate => exact (OnlyDataCache.ite (onlyDataCache_hitWritebackInvalidate s va) (.refl s)).retire .other
  case hitInvalidate =>
    rw [if_pos hc]
    exact hitWritebackInvalidate_spec hf
  case hitInvalidateNone => rw [hitOnCached_eq_self h hitWritebackInvalidate_of_miss]
  case frameIndex => exact (onlyDataCache_indexWritebackInvalidate s va).retire .other
  case indexBoth =>
    have h := indexWritebackInvalidate_spec ((CacheSet.indexed_of_both ha hb).trans (congrArg some hw.symm))
    rw [ha, hb, Bool.and_self, Bool.and_true] at h
    exact h
  case indexSingle =>
    have h := indexWritebackInvalidate_spec (CacheSet.indexed_of_single hw ho)
    rw [CacheSet.both_eq_false ho, Bool.and_false] at h
    exact h
  case indexNone => rw [indexWritebackInvalidate_of_not_indexed (CacheSet.indexed_of_neither ha hb)]

end Sys2Proof.Machine
end

section
/-! PROOFS. The CACHE operations that put a line into the cache (47_cp0_cache.md R391, R393, R399 to R401): Fill, Fill with Lock
and Create Dirty Exclusive. -/

namespace Sys2Proof.Machine

/-! ## Lock set after a fill (R393, R401) -/

theorem AccessedWay.lockOn {δ : Type} {c d : CacheSet δ} {w : WaySel} {x : Way δ} {l : Bool} (h : AccessedWay c d w x l) :
    AccessedWay c d.lockOn w x true := h.withLock true

section LockOn

variable {s t : State} {va : Word} {w : WaySel} {fillWayB l : Bool}

theorem FilledI.lockOn (h : FilledI va w fillWayB l s t) :
    FilledI va w fillWayB true s (t.setIset va (t.iset va).lockOn) := by
  obtain ⟨hfills, hothers, hway⟩ := h
  refine ⟨hfills, hothers.trans (sameOtherIsets_setIset t va _), ?_⟩
  rw [State.iset_setIset_same]
  exact hway.lockOn

theorem FilledD.lockOn (h : FilledD va w fillWayB l s t) :
    FilledD va w fillWayB true s (t.setDset va (t.dset va).lockOn) := by
  obtain ⟨hfills, hothers, hmem, hway, hempty, hheld, hvictim, hkept⟩ := h
  refine ⟨hfills, hothers.trans (sameOtherDsets_setDset t va _), hmem, ?_, hempty, hheld, hvictim, hkept⟩
  rw [State.dset_setDset_same]
  exact hway.lockOn

end LockOn

/-! ## Fill and Fill with Lock (R391, R393, R401, R402) -/

section Fills

variable {s : State} {va : Word} {w : WaySel}

theorem icacheFill_ok (e : GeneralException) (hb : s.busError .load (physicalLine va) 64 = false) :
    icacheFill .load e w va s = .ok w ((s.fillIset va w).touchI va w) := if_neg (Bool.eq_false_iff.1 hb)

theorem icacheFill_raise (e : GeneralException) (hb : s.busError .load (physicalLine va) 64 = true) :
    icacheFill .load e w va s = .raise e := if_pos hb

theorem dcacheFill_ok (hb : s.busError .load (physicalLine va) 64 = false) :
    dcacheFill .load w va s = .ok w (s.filled va w) := if_neg (Bool.eq_false_iff.1 hb)

theorem dcacheFill_raise (hb : s.busError .load (physicalLine va) 64 = true) :
    dcacheFill .load w va s = .raise .dbe := if_pos hb

/-! ### A line that is there already -/

theorem fillI_of_hit (hf : (s.iset va).find (lineTag va) = some w) : fillI va s = .ok () s := by
  rw [fillI, hf]

theorem fillD_of_hit (hf : (s.dset va).find (lineTag va) = some w) : fillD va s = .ok () s := by
  rw [fillD, hf]

theorem fillLockI_of_hit (hf : (s.iset va).find (lineTag va) = some w) :
    fillLockI va s = .ok () ((s.setIset va ((s.iset va).lockOpen s.freeBit)).drawn 1) := by
  rw [fillLockI, hf]

theorem fillLockD_of_hit (hf : (s.dset va).find (lineTag va) = some w) :
    fillLockD va s = .ok () ((s.setDset va ((s.dset va).lockOpen s.freeBit)).drawn 1) := by
  rw [fillLockD, hf]

/-- A Lock that is 1 stays 1, whatever the free bit. -/
theorem lock_of_lockOpen {δ : Type} {c : CacheSet δ} (free : Bool) (h : c.lock = true) : (c.lockOpen free).lock = true :=
  Bool.or_eq_true_iff.2 (.inl h)

/-! ### A line that the bus gives -/

theorem fillI_of_miss (hf : (s.iset va).find (lineTag va) = none) (hb : s.busError .load (physicalLine va) 64 = false) :
    ∃ u, fillI va s = .ok () u ∧ u = { s with icache := u.icache } ∧
      FilledI va (s.victimI va) s.env.fillWayB (s.iset va).lock s u := by
  refine ⟨_, ?_, rfl, filledI_fill s va (fillsWay_victim _ _)⟩
  rw [fillI, hf, icacheFill_ok .dbe hb]
  rfl

theorem fillLockI_of_miss (hf : (s.iset va).find (lineTag va) = none) (hb : s.busError .load (physicalLine va) 64 = false) :
    ∃ u, fillLockI va s = .ok () u ∧ u = { s with icache := u.icache } ∧
      FilledI va (s.lockVictimI va) (if (s.iset va).lock then (s.iset va).lru else s.env.fillWayB) true s u := by
  refine ⟨_, ?_, rfl, (filledI_fill s va (fillsWay_victim _ _)).lockOn⟩
  rw [fillLockI, hf, icacheFill_ok .dbe hb]
  rfl

theorem onlyDataCache_filled (s : State) (va : Word) (w : WaySel) : OnlyDataCache s (s.filled va w) := by
  have hevict : OnlyDataCache s ((s.settleLine va).evict va w) := rfl
  exact (hevict.setDset va _).setDset va _

theorem fillD_of_miss (hf : (s.dset va).find (lineTag va) = none) (hb : s.busError .load (physicalLine va) 64 = false) :
    ∃ u, fillD va s = .ok () u ∧ OnlyDataCache s u ∧
      FilledD va (s.victimD va) s.env.fillWayB (s.dset va).lock s u := by
  refine ⟨_, ?_, onlyDataCache_filled s va _, filledD_filled s va (fillsWay_victim _ _)⟩
  rw [fillD, hf, dcacheFill_ok hb]
  rfl

theorem fillLockD_of_miss (hf : (s.dset va).find (lineTag va) = none) (hb : s.busError .load (physicalLine va) 64 = false) :
    ∃ u, fillLockD va s = .ok () u ∧ OnlyDataCache s u ∧
      FilledD va (s.lockVictimD va) (if (s.dset va).lock then (s.dset va).lru else s.env.fillWayB) true s u := by
  refine ⟨_, ?_, (onlyDataCache_filled s va _).setDset va _, (filledD_filled s va (fillsWay_victim _ _)).lockOn⟩
  rw [fillLockD, hf, dcacheFill_ok hb]
  rfl

/-! ### A line that the bus does not give -/

theorem fillI_dbe (hf : (s.iset va).find (lineTag va) = none) (hb : s.busError .load (physicalLine va) 64 = true) :
    fillI va s = .raise .dbe ∧ fillLockI va s = .raise .dbe := by
  rw [fillI, fillLockI, hf, icacheFill_raise .dbe hb, icacheFill_raise .dbe hb]
  exact ⟨rfl, rfl⟩

theorem fillD_dbe (hf : (s.dset va).find (lineTag va) = none) (hb : s.busError .load (physicalLine va) 64 = true) :
    fillD va s = .raise .dbe ∧ fillLockD va s = .raise .dbe := by
  rw [fillD, fillLockD, hf, dcacheFill_raise hb, dcacheFill_raise hb]
  exact ⟨rfl, rfl⟩

end Fills

/-! ## Create Dirty Exclusive (R399, R400) -/

/-- `t` is `s` after Create Dirty Exclusive made the line of `va`, with the bytes `d`, in way `w`: the way that hits, or else
that of R111, from which a valid dirty line has gone to the writeback buffer. Lock is then `lock`. -/
def CreatedDirty (va : Word) (w : WaySel) (d : Line) (lock : Bool) (s t : State) : Prop :=
  SameOtherDsets va s t ∧
  AccessedWay (s.dset va) (t.dset va) w { valid := true, tag := lineTag va, data := d, dirty := true } lock ∧
  (∀ v, (s.dset va).find (lineTag va) = some v → w = v ∧ t.writeback = s.writeback ∧ t.mem = s.mem) ∧
  ((s.dset va).find (lineTag va) = none → FillsWay (s.dset va) s.env.fillWayB w ∧
    (((s.dset va).way w).valid = true → WrittenBackIfDirty va w s t) ∧
    (((s.dset va).way w).valid = false → t.writeback = s.writeback ∧ t.mem = s.mem))

section Create

variable {s : State} {va : Word} {w : WaySel}

theorem createWay_of_hit (hf : (s.dset va).find (lineTag va) = some w) : s.createWay va = w := by
  rw [State.createWay, hf]

theorem createWay_of_miss (hf : (s.dset va).find (lineTag va) = none) : s.createWay va = s.victimD va := by
  rw [State.createWay, hf]

theorem createRoom_of_hit (hf : (s.dset va).find (lineTag va) = some w) : s.createRoom va = s := by
  rw [State.createRoom, hf]

theorem createRoom_of_miss (hf : (s.dset va).find (lineTag va) = none) : s.createRoom va = s.evict va (s.victimD va) := by
  rw [State.createRoom, hf]

theorem createRoom_dset (s : State) (va a : Word) : (s.createRoom va).dset a = s.dset a := by
  unfold State.createRoom
  split <;> rfl

theorem onlyDataCache_createRoom (s : State) (va : Word) : OnlyDataCache s (s.createRoom va) := by
  unfold State.createRoom
  split <;> rfl

theorem onlyDataCache_createDirty (s : State) (va : Word) : OnlyDataCache (s.drawn 1) (s.createDirty va) :=
  (((onlyDataCache_createRoom s va).setDset va _).setDset va _).drawn 1

theorem createDirty_writeback (s : State) (va : Word) : (s.createDirty va).writeback = (s.createRoom va).writeback := by
  rw [State.createDirty, drawn_writeback, touchD_writeback, setDset_writeback]

theorem createDirty_mem (s : State) (va : Word) : (s.createDirty va).mem = (s.createRoom va).mem := by
  rw [State.createDirty, drawn_mem, touchD_mem, setDset_mem]

/-- A valid victim goes to the writeback buffer if it is dirty. -/
theorem writtenBackIfDirty_evict (hv : ((s.dset va).way w).valid = true) : WrittenBackIfDirty va w s (s.evict va w) := by
  have hdirty : s.dirtyVictim va w = ((s.dset va).way w).dirty := by rw [State.dirtyVictim, hv, Bool.true_and]
  apply writtenBackIfDirty_of_eq
  · rw [evict_writeback, hdirty]
  · rw [evict_mem, hdirty]

/-- An invalid victim goes nowhere. -/
theorem evict_of_not_valid (hv : ((s.dset va).way w).valid = false) : s.evict va w = s := by
  have hdirty : s.dirtyVictim va w = false := by rw [State.dirtyVictim, hv, Bool.false_and]
  rw [State.evict, hdirty]
  rfl

theorem createdDirty_createDirty (s : State) (va : Word) :
    CreatedDirty va (s.createWay va) s.freeLine (s.dset va).lock s (s.createDirty va) := by
  refine ⟨fun a ha => ?others, ?way, fun v hf => ?hit, fun hf => ?miss⟩
  case others =>
    rw [State.createDirty, drawn_dset, State.touchD, State.dset_setDset, if_neg ha, State.dset_setDset, if_neg ha,
      createRoom_dset]
  case way =>
    rw [State.createDirty, drawn_dset, State.touchD, State.dset_setDset_same, State.dset_setDset_same]
    exact accessedWay_setWay_touch _ _ _
  case hit =>
    have hroom := createRoom_of_hit hf
    exact ⟨createWay_of_hit hf, by rw [createDirty_writeback, hroom], by rw [createDirty_mem, hroom]⟩
  case miss =>
    have hroom := createRoom_of_miss hf
    have hwriteback : (s.createDirty va).writeback = (s.evict va (s.victimD va)).writeback := by
      rw [createDirty_writeback, hroom]
    have hmem : (s.createDirty va).mem = (s.evict va (s.victimD va)).mem := by rw [createDirty_mem, hroom]
    rw [createWay_of_miss hf]
    refine ⟨fillsWay_victim _ _, fun hv => (writtenBackIfDirty_evict hv).congr hwriteback hmem, fun hv => ?invalid⟩
    case invalid =>
      rw [evict_of_not_valid hv] at hwriteback hmem
      exact ⟨hwriteback, hmem⟩

theorem CreatedDirty.lockOn {d : Line} {l : Bool} {t : State} (h : CreatedDirty va w d l s t) :
    CreatedDirty va w d true s (t.setDset va (t.dset va).lockOn) := by
  obtain ⟨hothers, hway, hhit, hmiss⟩ := h
  refine ⟨hothers.trans (sameOtherDsets_setDset t va _), ?_, hhit, hmiss⟩
  rw [State.dset_setDset_same]
  exact hway.lockOn

end Create

/-- Settles O49: the checks come first, and then each operation does what is said of it above. -/
theorem cacheFills : Obligations.CacheFills := by
  unfold Obligations.CacheFills
  intro s base off va m hva hu hm
  refine ⟨fun hp hc => ?cached, fun op hp => exec_cache_adEL hva hu hm hp op,
    fun f hp => exec_cache_allowed hva hu hm hp (.blank f), fun hp hc op hop => ?notCached⟩
  case notCached =>
    rw [exec_cache_allowed hva hu hm hp]
    simp only [List.mem_cons, List.not_mem_nil, or_false] at hop
    rcases hop with rfl | rfl | rfl | rfl | rfl | rfl <;> rw [cacheOperation, onCached_of_not_cached hc] <;> rfl
  case cached =>
    have hrun {op : CacheOp} {u : State} (a : Access Unit) (hop : cacheOperation op va s = onCached va a) (h : a = .ok () u) :=
      exec_cache_ok hva hu hm hp (hop.trans ((onCached_of_cached hc a).trans h))
    have hraise {op : CacheOp} (a : Access Unit) (hop : cacheOperation op va s = onCached va a) (h : a = .raise .dbe) :=
      (exec_cache_allowed hva hu hm hp op).trans
        (Access.complete_raise (hop.trans ((onCached_of_cached hc a).trans h)) s _)
    refine ⟨fun hf => ?hitI, fun hf => ?hitD, fun hf hb => ?missI, fun hf hb => ?missD, ?create, ?createLock,
      fun hf hb => ?dbeI, fun hf hb => ?dbeD⟩
    case hitI =>
      obtain ⟨w, hf⟩ := Option.ne_none_iff_exists'.1 hf
      exact ⟨hrun _ rfl (fillI_of_hit hf), _, lock_of_lockOpen s.freeBit, hrun _ rfl (fillLockI_of_hit hf)⟩
    case hitD =>
      obtain ⟨w, hf⟩ := Option.ne_none_iff_exists'.1 hf
      exact ⟨hrun _ rfl (fillD_of_hit hf), _, lock_of_lockOpen s.freeBit, hrun _ rfl (fillLockD_of_hit hf)⟩
    case missI =>
      obtain ⟨u, hfill, hframe, hfilled⟩ := fillI_of_miss hf hb
      obtain ⟨v, hlock, vframe, hlocked⟩ := fillLockI_of_miss hf hb
      exact ⟨⟨_, _, hrun _ rfl hfill, congrArg (State.retire · .other) hframe, hfilled⟩,
        ⟨_, _, hrun _ rfl hlock, congrArg (State.retire · .other) vframe, hlocked⟩⟩
    case missD =>
      obtain ⟨u, hfill, hframe, hfilled⟩ := fillD_of_miss hf hb
      obtain ⟨v, hlock, vframe, hlocked⟩ := fillLockD_of_miss hf hb
      exact ⟨⟨_, _, hrun _ rfl hfill, hframe.retire .other, hfilled⟩,
        ⟨_, _, hrun _ rfl hlock, vframe.retire .other, hlocked⟩⟩
    case create =>
      exact ⟨_, _, _, hrun _ rfl rfl, (onlyDataCache_createDirty s va).retire .other, createdDirty_createDirty s va⟩
    case createLock =>
      exact ⟨_, _, _, hrun _ rfl rfl, ((onlyDataCache_createDirty s va).setDset va _).retire .other,
        (createdDirty_createDirty s va).lockOn⟩
    case dbeI =>
      obtain ⟨hfill, hlock⟩ := fillI_dbe hf hb
      exact ⟨hraise _ rfl hfill, hraise _ rfl hlock⟩
    case dbeD =>
      obtain ⟨hfill, hlock⟩ := fillD_dbe hf hb
      exact ⟨hraise _ rfl hfill, hraise _ rfl hlock⟩

end Sys2Proof.Machine
end

section
/-! PROOFS. The general exceptions (60_exceptions.md R440 to R444): their entry, the way back by ERET (R449), and the FPU
exception among the exceptions of one step (R437, R456). -/

namespace Sys2Proof.Machine

/-! ## The entry (R440 to R444) -/

theorem restartAddress_of_slot {s : State} (h : s.inDelaySlot = true) : s.restartAddress = s.pc - 4 := if_pos h

theorem restartAddress_outside_slot {s : State} (h : s.inDelaySlot = false) : s.restartAddress = s.pc :=
  if_neg (Bool.eq_false_iff.1 h)

theorem takeException_epc_of_not_exl {s : State} (h : s.cp0.status.exl = false) (e : GeneralException) :
    (takeException e s).cp0.epc = s.restartAddress := by
  rw [takeException_epc, if_neg (Bool.eq_false_iff.1 h)]

theorem takeException_bd_of_not_exl {s : State} (h : s.cp0.status.exl = false) (e : GeneralException) :
    (takeException e s).cp0.cause.bd = s.inDelaySlot := by
  rw [takeException_cause, if_neg (Bool.eq_false_iff.1 h)]

/-- An exception taken at EXL = 1 keeps the way back of the one before it (R442, log entry 8). -/
theorem takeException_nested {s : State} (h : s.cp0.status.exl = true) (e : GeneralException) :
    (takeException e s).cp0.epc = s.cp0.epc ∧ (takeException e s).cp0.cause.bd = s.cp0.cause.bd := by
  rw [takeException_epc, takeException_cause, if_pos h, if_pos h]
  exact ⟨rfl, rfl⟩

/-- Only the address errors carry an address (R102). -/
theorem GeneralException.badVAddr_of_address {e : GeneralException} {va : Word} (h : e = .adEL va ∨ e = .adES va)
    (old : Word) : e.badVAddr old = va := by
  rcases h with rfl | rfl <;> rfl

theorem GeneralException.badVAddr_of_no_address {e : GeneralException} (h : ∀ va, e ≠ .adEL va ∧ e ≠ .adES va)
    (old : Word) : e.badVAddr old = old := by
  cases e with
  | adEL va => exact absurd rfl (h va).1
  | adES va => exact absurd rfl (h va).2
  | int | ibe | dbe | sys | bp | ri | cpU z | ov | fpe => rfl

theorem interruptCondition_of_exl {s : State} (h : s.cp0.status.exl = true) : s.interruptCondition = false := by
  simp [State.interruptCondition, Status.interruptsEnabled, h]

theorem sameMemory_takeException (e : GeneralException) (s : State) : SameMemory s (takeException e s) :=
  ⟨rfl, rfl, rfl, rfl, rfl⟩

/-- Settles O50: what `takeException` writes depends on EXL and on the delay slot, and every other field is as it was. -/
theorem generalExceptionEntry : Obligations.GeneralExceptionEntry := by
  unfold Obligations.GeneralExceptionEntry
  rintro s t e rfl
  have hcode {e' : GeneralException} (h : e = e') : (takeException e s).cp0.cause.excCode = e'.code :=
    h ▸ takeException_excCode e s
  have hmem := sameMemory_takeException e s
  refine ⟨fun hx hd => ?outsideSlot, fun hx hd => ?inSlot, fun hx => takeException_nested hx e, hcode, fun _ => hcode,
    fun _ => hcode, hcode, hcode, hcode, hcode, hcode, fun _ => hcode, hcode, hcode, rfl, rfl, rfl, rfl,
    takeException_mode e s, interruptCondition_of_exl rfl, rfl, rfl, rfl, fun va h => ?address, fun h => ?noAddress,
    fun z h => ?cpU, rfl, rfl, rfl, rfl, fun _ => rfl, rfl, rfl, rfl, rfl, rfl, rfl, hmem, hmem.sameBytes rfl⟩
  case outsideSlot =>
    exact ⟨(takeException_epc_of_not_exl hx e).trans (restartAddress_outside_slot hd),
      (takeException_bd_of_not_exl hx e).trans hd⟩
  case inSlot =>
    exact ⟨(takeException_epc_of_not_exl hx e).trans (restartAddress_of_slot hd),
      (takeException_bd_of_not_exl hx e).trans hd⟩
  case address => exact GeneralException.badVAddr_of_address h _
  case noAddress => exact GeneralException.badVAddr_of_no_address h _
  case cpU => exact h ▸ takeException_cpU_ce z s

/-! ## The way back (R449) -/

/-- Right after an entry ERET is not refused: its mode is kernel mode, no delay slot is open and no MTC0 lies behind it. -/
theorem exec_eret_takeException (e : GeneralException) (s : State) :
    exec .eret (takeException e s) = .next (exceptionReturn (takeException e s)) :=
  exec_eret_usable (.inr (takeException_mode e s))

/-- With ERL = 0 the handler goes back to EPC, which a first exception has set to the restart address. -/
theorem returnAddress_takeException {s : State} (hl : s.cp0.status.erl = false) (hx : s.cp0.status.exl = false)
    (e : GeneralException) : (takeException e s).returnAddress = s.restartAddress := by
  rw [State.returnAddress, takeException_status, if_neg (Bool.eq_false_iff.1 hl), takeException_epc_of_not_exl hx]

/-- The EXL that the entry sets is what ERET clears. -/
theorem exceptionReturn_takeException_status {s : State} (hl : s.cp0.status.erl = false)
    (hx : s.cp0.status.exl = false) (e : GeneralException) :
    (exceptionReturn (takeException e s)).cp0.status = s.cp0.status := by
  rw [exceptionReturn_cp0_of_not_erl (s := takeException e s) hl, takeException_status, ← hx]

/-- Settles O51: EPC and EXL are what the entry sets, and ERET uses the one and clears the other. -/
theorem exceptionAndReturn : Obligations.ExceptionAndReturn := by
  unfold Obligations.ExceptionAndReturn
  intro s e hl hx
  have hstatus := exceptionReturn_takeException_status hl hx e
  exact ⟨_, exec_eret_takeException e s, returnAddress_takeException hl hx e, rfl, hstatus, congrArg Status.mode hstatus,
    rfl, fun _ => rfl⟩

/-! ## The FPU exception (R437, R456) -/

theorem fpuRequests_iff (s : State) : s.fpuRequests = true ↔ s.cop1.ctl.excRequest = some 0 := beq_iff_eq

theorem fpeDue_iff {s : State} (hx : s.cp0.status.exl = false) (hl : s.cp0.status.erl = false) :
    s.fpeDue = true ↔ s.cop1.ctl.excRequest = some 0 := by
  rw [State.fpeDue, hx, hl, Bool.not_false, Bool.and_true, Bool.and_true, fpuRequests_iff]

theorem raisesFpe_iff {s : State} (hx : s.cp0.status.exl = false) (hl : s.cp0.status.erl = false) (t : State) :
    t.raisesFpe s = true ↔ t.cop1.ctl.excRequest = some 0 := by
  rw [State.raisesFpe, hx, hl, Bool.not_false, Bool.and_true, Bool.and_true, fpuRequests_iff]

/-- Ov and Sys, by their codes, are the exceptions that come before FPE (D37). -/
theorem outranksFpe_iff (s : State) :
    s.outranksFpe = true ↔ s.entered = true ∧ (s.cp0.cause.excCode = 12 ∨ s.cp0.cause.excCode = 8) := by
  rw [State.outranksFpe, Bool.and_eq_true, Bool.or_eq_true, beq_iff_eq, beq_iff_eq]
  rfl

theorem arbitrate_outranked {irq : Bool} {s t : State} (hd : s.fpeDue = true) (ho : t.outranksFpe = true) :
    arbitrate irq s t = t := by
  rw [arbitrate, if_pos hd, if_pos ho]

theorem arbitrate_due {irq : Bool} {s t : State} (hd : s.fpeDue = true) (ho : ¬t.outranksFpe = true) :
    arbitrate irq s t = takeException .fpe s := by
  rw [arbitrate, if_pos hd, if_neg ho]

/-- A request that stands is served even at an instruction that would be refused. -/
theorem conclude_refused_due {irq : Bool} {s : State} (hd : s.fpeDue = true) (x : Refusal) :
    conclude irq s (.refused x) = .next (takeException .fpe s) := if_pos hd

/-- A request that is to come is one step nearer as a step begins. -/
theorem begin_excRequest {s : State} {n : Nat} (hi : s.env.inputs = []) (h : s.cop1.ctl.excRequest = some (n + 1)) :
    s.begin.cop1.ctl.excRequest = some n := by
  have hbegin : s.begin = s.tick := by rw [State.begin, hi]
  rw [hbegin, tick_cop1, CopControl.tick, h]

/-- Settles O53: whether the request stands after the fetch is whether it stood as the step began, and `arbitrate` puts it
after Ov and Sys alone. -/
theorem fpuExceptionTaken : Obligations.FpuExceptionTaken := by
  unfold Obligations.FpuExceptionTaken
  intro s t w m he hm hx hl hf
  have hdue : t.fpeDue = true ↔ s.begin.cop1.ctl.excRequest = some 0 := by rw [fetch_fpeDue hf, fpeDue_iff hx hl]
  have hcp0 : t.cp0 = s.begin.cp0 := by rw [fetch_next hf]
  rw [← hcp0] at hx hl
  refine ⟨fun u hr => ⟨fun hq => ⟨fun ho => ?outranked, fun ho => ?due⟩, fun hq hu => ?itself⟩, fun x hr hq => ?refused,
    fun n hi h => begin_excRequest hi h⟩
  case outranked => rw [step_of_runWord he hm hf hr, arbitrate_outranked (hdue.2 hq) ((outranksFpe_iff u).2 ho)]
  case due => rw [step_of_runWord he hm hf hr, arbitrate_due (hdue.2 hq) (mt (outranksFpe_iff u).1 ho)]
  case itself =>
    have hnot : t.fpeDue = false := Bool.eq_false_iff.2 (mt hdue.1 hq)
    rw [step_of_runWord he hm hf hr, arbitrate_fpe hnot ((raisesFpe_iff hx hl u).2 hu)]
    rfl
  case refused =>
    rw [step_of_fetch he hm hf, hr, conclude_refused_due (hdue.2 hq)]
    rfl

end Sys2Proof.Machine
end

section
/-! PROOFS. The timer (60_exceptions.md R453): the advance of Count at the end of a step, and when IP[7] is set. -/

namespace Sys2Proof.Machine

/-- How far Count has to advance to take a value, modulo 2^32. -/
theorem add_ofNat_eq_iff (c p : Word) (j : Nat) :
    c + BitVec.ofNat 32 j = p ↔ j % 4294967296 = (p - c).toNat := by
  rw [← eq_sub_iff_add_eq', ← BitVec.toNat_inj, BitVec.toNat_ofNat]

/-- The advance meets Compare on the way exactly if it is no shorter than the first distance at which it can: a whole turn if
Count starts there. -/
theorem timerPasses_iff (c p : Word) (k : Nat) :
    timerPasses c p k = true ↔ ∃ j, 1 ≤ j ∧ j ≤ k ∧ c + BitVec.ofNat 32 j = p := by
  simp only [timerPasses, decide_eq_true_iff, add_ofNat_eq_iff]
  by_cases h : c = p
  · have hzero : (p - c).toNat = 0 := by rw [h, BitVec.sub_self]; rfl
    rw [if_pos h, hzero]
    constructor
    · intro hk
      exact ⟨4294967296, by omega, hk, rfl⟩
    · rintro ⟨j, hj, hk, hmod⟩
      omega
  · have hlt := (p - c).isLt
    have hpos : (p - c).toNat ≠ 0 := BitVec.toNat_ne_iff_ne.2 (sub_ne_zero.2 (Ne.symm h))
    rw [if_neg h]
    constructor
    · intro hk
      exact ⟨(p - c).toNat, by omega, hk, Nat.mod_eq_of_lt hlt⟩
    · rintro ⟨j, -, hk, hmod⟩
      exact hmod ▸ (Nat.mod_le j _).trans hk

theorem timerOpen_iff (s : State) :
    s.timerOpen = true ↔ s.last1 = .mtc0Timer ∧
      (s.cp0.count = s.cp0.compare ∨ s.cp0.count + BitVec.ofNat 32 s.countStep = s.cp0.compare) := by
  rw [State.timerOpen, Bool.and_eq_true, Bool.or_eq_true, beq_iff_eq, beq_iff_eq, beq_iff_eq]
  rfl

/-- Where IP[7] is not open, the end of a step draws no free value. -/
theorem endStep_of_not_open {s : State} (h : ¬s.timerOpen = true) :
    s.endStep = { s with cp0 := { s.cp0 with
      count := s.nextCount
      cause := { s.cp0.cause with timer := s.endStep.cp0.cause.timer } } } := by
  rw [endStep_cp0, State.endStep, if_neg h]

theorem endStep_timer_iff {s : State} (h : ¬s.timerOpen = true) :
    s.endStep.cp0.cause.timer = true ↔
      s.cp0.cause.timer = true ∨ timerPasses s.cp0.count s.cp0.compare s.countStep = true := by
  rw [endStep_cp0, State.nextTimer, if_neg h, Bool.or_eq_true]

theorem endStep_of_open {s : State} (h : s.timerOpen = true) :
    s.endStep = { s.drawn 1 with cp0 := { s.cp0 with
      count := s.nextCount
      cause := { s.cp0.cause with timer := s.freeBit } } } := by
  rw [State.endStep, State.nextTimer, if_pos h, if_pos h]
  rfl

/-- Settles O55: IP[7] is open exactly where an MTC0 has just left Count and Compare equal, before or after the advance, and
elsewhere is set by an advance that meets Compare. -/
theorem timerAdvance : Obligations.TimerAdvance := by
  unfold Obligations.TimerAdvance
  intro s
  refine ⟨Nat.le_add_left 1 _, fun h => ?closed, fun hlast h => endStep_of_open ((timerOpen_iff s).2 ⟨hlast, h⟩)⟩
  case closed =>
    have hclosed : ¬s.timerOpen = true := by
      rw [timerOpen_iff, not_and_or, not_or]
      exact h
    exact ⟨endStep_of_not_open hclosed, by rw [endStep_timer_iff hclosed, timerPasses_iff]⟩

end Sys2Proof.Machine
end

section
/-! PROOFS. The error exceptions (60_exceptions.md R445 to R448, R455; 10_state.md R58): what NMI and the two resets leave in the
state, and which of them a step takes. -/

namespace Sys2Proof.Machine

/-! ## What every error exception does (R445) -/

theorem ErrorException.sr_iff (k : ErrorException) : k.sr = true ↔ k ≠ .hardwareReset := by
  cases k <;> decide

theorem errorEntry_status (k : ErrorException) (s : State) :
    (errorEntry k s).cp0.status.erl = true ∧ (errorEntry k s).cp0.status.bev = true ∧
      (errorEntry k s).cp0.status.sr = k.sr := by
  cases k <;> exact ⟨rfl, rfl, rfl⟩

theorem errorEntry_vector (k : ErrorException) (s : State) :
    (errorEntry k s).pc = resetVector ∧ (errorEntry k s).npc = resetVector + 4 ∧
      (errorEntry k s).inDelaySlot = false := by
  cases k <;> exact ⟨rfl, rfl, rfl⟩

theorem errorEntry_errorEPC {k : ErrorException} (hk : k ≠ .hardwareReset) (s : State) :
    (errorEntry k s).cp0.errorEPC = s.restartAddress := by
  cases k with
  | hardwareReset => exact absurd rfl hk
  | softwareReset | nmi => rfl

/-! ## NMI (R448) -/

theorem sameMemory_nmiEntry (s : State) : SameMemory s (nmiEntry s) := ⟨rfl, rfl, rfl, rfl, rfl⟩

/-! ## The resets (R446, R447, R58) -/

theorem errorEntry_of_reset {k : ErrorException} (hk : k ≠ .nmi) (s : State) : errorEntry k s = resetEntry k s := by
  cases k with
  | hardwareReset | softwareReset => rfl
  | nmi => exact absurd rfl hk

/-- Of CP0 a reset writes ERL, BEV, SR and ErrorEPC at most. -/
theorem resetEntry_cp0 (k : ErrorException) (s : State) :
    (resetEntry k s).cp0 = { s.afterReset.cp0 with
      status := { s.afterReset.cp0.status with erl := true, bev := true, sr := (resetEntry k s).cp0.status.sr }
      errorEPC := (resetEntry k s).cp0.errorEPC } := by
  cases k <;> rfl

theorem resetEntry_errorEPC_hardware (s : State) :
    (resetEntry .hardwareReset s).cp0.errorEPC = s.afterReset.cp0.errorEPC := rfl

/-- Beside the entry of r0, which is 0, the general registers are unspecified. -/
theorem resetEntry_reg {r : Reg} (hr : r ≠ 0#5) (k : ErrorException) (s : State) :
    (resetEntry k s).reg r = s.afterReset.regs[r.toNat]'r.isLt := by
  have hne : 0 ≠ r.toNat := fun h => hr (BitVec.eq_of_toNat_eq h.symm)
  calc (resetEntry k s).reg r
    _ = (s.afterReset.regs.set 0 0)[r.toNat]'r.isLt := if_neg hr
    _ = s.afterReset.regs[r.toNat]'r.isLt := Vector.getElem_set_ne _ _ hne

theorem resetEntry_iset (k : ErrorException) (s : State) (va : Word) :
    (resetEntry k s).iset va = (s.afterReset.icache[(setIndex va).toNat]'(setIndex va).isLt).invalidateAll :=
  Vector.getElem_map _ _

theorem CacheSet.invalidateAll_valid {δ : Type} (c : CacheSet δ) (w : WaySel) : (c.invalidateAll.way w).valid = false := by
  cases w <;> rfl

theorem resetEntry_iset_valid (k : ErrorException) (s : State) (va : Word) (w : WaySel) :
    (((resetEntry k s).iset va).way w).valid = false := by
  rw [resetEntry_iset, CacheSet.invalidateAll_valid]

/-- Memory is free only where a write from a buffer was on its way (log entry 18). -/
theorem resetEntry_read {s : State} {a : Nat} (ha : a ∉ s.inFlight) (k : ErrorException) :
    (resetEntry k s).mem.read a = s.mem.read a :=
  s.env.read_scramble_outside s.mem s.freeCount s.inFlight a ha

/-! ## Which event a step takes (R455) -/

theorem step_of_event {s : State} {k : ErrorException} (h : s.event = some k) :
    step s = .next (errorEntry k s.begin).endStep := by
  simp only [step, cycle, runStep, h, onNext]

theorem event_of_no_input {s : State} (h : s.env.inputs = []) : s.event = none := by
  rw [State.event, h]

theorem event_of_input {s : State} {i : Input} {rest : List Input} (h : s.env.inputs = i :: rest) : s.event = i.event := by
  rw [State.event, h]

/-- Hardware reset comes before software reset, and software reset before NMI. -/
theorem Input.event_priority (i : Input) :
    (i.xrst = true → i.event = some .hardwareReset) ∧
    (i.xrst = false → i.xsrst = true → i.event = some .softwareReset) ∧
    (i.xrst = false → i.xsrst = false → i.xnmi = true → i.event = some .nmi) ∧
    (i.xrst = false → i.xsrst = false → i.xnmi = false → i.event = none) := by
  refine ⟨fun hr => ?_, fun hr hs => ?_, fun hr hs hn => ?_, fun hr hs hn => ?_⟩
  · simp [Input.event, hr]
  · simp [Input.event, hr, hs]
  · simp [Input.event, hr, hs, hn]
  · simp [Input.event, hr, hs, hn]

/-- Settles O56: NMI writes only ErrorEPC and Status, a reset takes the rest from `State.afterReset`, and an event is taken
before the fetch. -/
theorem errorExceptionEntry : Obligations.ErrorExceptionEntry := by
  unfold Obligations.ErrorExceptionEntry
  intro s k
  obtain ⟨hpc, hnpc, hslot⟩ := errorEntry_vector k s
  obtain ⟨herl, hbev, hsr⟩ := errorEntry_status k s
  refine ⟨hpc, hnpc, hslot, errorEntry_mode k s, herl, hbev, by rw [hsr, k.sr_iff], fun hk => errorEntry_errorEPC hk s,
    fun hk => ?nmi, fun hk => ?unspecified, fun hk => ?reset, step_of_event, event_of_no_input,
    fun i rest hi => ?priority⟩
  case nmi =>
    subst hk
    have hmem := sameMemory_nmiEntry s
    exact ⟨rfl, fun _ => rfl, hmem, hmem.sameBytes rfl⟩
  case unspecified =>
    rw [errorEntry_of_reset hk]
    refine ⟨s.afterReset, rfl, resetEntry_cp0 k s, ?_, fun _ hr => resetEntry_reg hr k s, State.reg_zero _, rfl, rfl, rfl,
      rfl, rfl, rfl, rfl, resetEntry_iset k s⟩
    rintro rfl
    exact resetEntry_errorEPC_hardware s
  case reset =>
    rw [errorEntry_of_reset hk]
    exact ⟨rfl, rfl, resetEntry_iset_valid k s, fun _ ha => resetEntry_read ha k⟩
  case priority =>
    rw [event_of_input hi]
    exact i.event_priority

end Sys2Proof.Machine
end
